-- ==== Sys2Proof/Word.lean ====
section
/-! DEFINITION. The value types of the core (00_scope.md R8, R9, R11): every value is unsigned. -/

namespace Sys2Proof

/-- A byte is 8 bits (R9). -/
abbrev Byte := BitVec 8

/-- A 16-bit value: the checksum, a count, a protocol field (R8, R24). -/
abbrev Half := BitVec 16

/-- The packed coil word, 32 bits (R8). -/
abbrev Word := BitVec 32

/-- A coil is one bit (R8, R14). -/
abbrev Coil := Bool

/-- A finite sequence of bytes, index 0 first (R10). -/
abbrev Frame := List Byte

/-- A finite sequence of coils, position 0 first (R11). -/
abbrev CoilSeq := List Coil

end Sys2Proof
end

