-- ==== Sys2Proof/Syntax.lean ====
section
/-! DEFINITION. The operations of the request interface (30_encoding.md R62), one constructor per row of the opcode
table, with the header's `st` and `dev` fields as their operands. The other operands are fields of `REQ` (R61). -/

namespace Sys2Proof

/-- The three devices the core serves (00_scope.md R3, R15). -/
inductive Device where
  | va
  | vb
  | pump
deriving DecidableEq, Repr

/-- The four values of the 2-bit device field (30_encoding.md R63). -/
inductive DevCode where
  | va
  | vb
  | pump
  | reserved
deriving DecidableEq, Repr

/-- The seven operations (R62). `st` is header bit 5 and `dev` header bits 4:3; CRC16 ignores both, and only COMMAND
reads `st` (R66), but they are bits of the header, so every constructor carries them. -/
inductive Instr where
  | crc16 (st : Bool) (dev : DevCode)
  | mapDecode (st : Bool) (dev : DevCode)
  | mapEncode (st : Bool) (dev : DevCode)
  | parse (st : Bool) (dev : DevCode)
  | build (st : Bool) (dev : DevCode)
  | pollReq (st : Bool) (dev : DevCode)
  | command (st : Bool) (dev : DevCode)
deriving DecidableEq, Repr

end Sys2Proof
end

