-- ==== Sys2Proof/WellFormed.lean ====
section
/-! DEFINITION. Which operations have a legal header (30_encoding.md R65, R68): the reserved device code is legal for
CRC16 alone. -/

namespace Sys2Proof

/-- The device code is not the reserved one (R63). -/
def DevCode.legal : DevCode → Bool
  | .va => true
  | .vb => true
  | .pump => true
  | .reserved => false

/-- Every operation but CRC16 needs a legal device code (R65); CRC16 takes all four (R66). -/
def Instr.wf : Instr → Bool
  | .crc16 _ _ => true
  | .mapDecode _ dev => dev.legal
  | .mapEncode _ dev => dev.legal
  | .parse _ dev => dev.legal
  | .build _ dev => dev.legal
  | .pollReq _ dev => dev.legal
  | .command _ dev => dev.legal

end Sys2Proof
end

