-- ==== Sys2Proof/Decode.lean ====
section
/-! DEFINITION. The header byte `REQ.hdr` (30_encoding.md R60, R62, R63, R65, R68): its fields, the decoder, total on
every byte and rejecting by name, and the encoder. -/

namespace Sys2Proof

/-- `REQ.op`, header bits 2:0 (R60). -/
def opField (h : Byte) : BitVec 3 := h.extractLsb' 0 3

/-- `REQ.dev`, header bits 4:3 (R60). -/
def devField (h : Byte) : BitVec 2 := h.extractLsb' 3 2

/-- `REQ.st`, header bit 5 (R60). -/
def stField (h : Byte) : Bool := h.getLsbD 5

/-- The reserved bits, header bits 7:6 (R60). -/
def rsvField (h : Byte) : BitVec 2 := h.extractLsb' 6 2

/-- The device map (R63). -/
def DevCode.ofBits (b : BitVec 2) : DevCode :=
  match b.toNat with
  | 0 => .va
  | 1 => .vb
  | 2 => .pump
  | _ => .reserved

/-- The bits of a device code (R63). -/
def DevCode.toBits : DevCode → BitVec 2
  | .va => 0
  | .vb => 1
  | .pump => 2
  | .reserved => 3

/-- The device a device code names; the reserved code names none (R63). -/
def DevCode.device? : DevCode → Option Device
  | .va => some .va
  | .vb => some .vb
  | .pump => some .pump
  | .reserved => none

/-- The code of a device (R63). -/
def Device.devCode : Device → DevCode
  | .va => .va
  | .vb => .vb
  | .pump => .pump

/-- Why a header byte is illegal (R65). All three give the result ILLEGAL (60_exceptions.md R202). -/
inductive DecodeError where
  /-- header bits 7:6 are not 00 -/
  | reservedBits
  /-- the operation is 7 -/
  | reservedOp
  /-- the device is 3 in an operation that reads the device -/
  | reservedDevice
deriving DecidableEq, Repr

/-- An operation that reads its device, refused where the device code is the reserved one (R65). -/
def withDevice (dev : DevCode) (i : Instr) : Except DecodeError Instr :=
  if dev = .reserved then .error .reservedDevice else .ok i

/-- The decoder of a header byte; the checks stand in the order of 60_exceptions.md R202: reserved bits, reserved
operation, reserved device. -/
def decode (h : Byte) : Except DecodeError Instr :=
  if rsvField h ≠ 0#2 then .error .reservedBits
  else
    match (opField h).toNat with
    | 0 => .ok (.crc16 (stField h) (.ofBits (devField h)))
    | 1 => withDevice (.ofBits (devField h)) (.mapDecode (stField h) (.ofBits (devField h)))
    | 2 => withDevice (.ofBits (devField h)) (.mapEncode (stField h) (.ofBits (devField h)))
    | 3 => withDevice (.ofBits (devField h)) (.parse (stField h) (.ofBits (devField h)))
    | 4 => withDevice (.ofBits (devField h)) (.build (stField h) (.ofBits (devField h)))
    | 5 => withDevice (.ofBits (devField h)) (.pollReq (stField h) (.ofBits (devField h)))
    | 6 => withDevice (.ofBits (devField h)) (.command (stField h) (.ofBits (devField h)))
    | _ => .error .reservedOp

/-- The operation code (R62). -/
def Instr.op : Instr → BitVec 3
  | .crc16 _ _ => 0
  | .mapDecode _ _ => 1
  | .mapEncode _ _ => 2
  | .parse _ _ => 3
  | .build _ _ => 4
  | .pollReq _ _ => 5
  | .command _ _ => 6

/-- The device code an operation carries. -/
def Instr.dev : Instr → DevCode
  | .crc16 _ dev => dev
  | .mapDecode _ dev => dev
  | .mapEncode _ dev => dev
  | .parse _ dev => dev
  | .build _ dev => dev
  | .pollReq _ dev => dev
  | .command _ dev => dev

/-- The status flag an operation carries. -/
def Instr.st : Instr → Bool
  | .crc16 st _ => st
  | .mapDecode st _ => st
  | .mapEncode st _ => st
  | .parse st _ => st
  | .build st _ => st
  | .pollReq st _ => st
  | .command st _ => st

/-- The encoder: `REQ.hdr = (st << 5) OR (dev << 3) OR op`, with `rsv = 0` (R68). -/
def encode (i : Instr) : Byte :=
  ((BitVec.ofBool i.st).setWidth 8 <<< 5) ||| (i.dev.toBits.setWidth 8 <<< 3) ||| i.op.setWidth 8

/-- The host's question: the instruction the decoder reads from the bits `w` of an encoding of `nbits` bits. A request
header is one byte, so bits above 7 that are not 0 belong to no encoding. -/
def decodeTableWord (nbits w : Nat) : Option Instr :=
  if w % 2 ^ nbits < 256 then
    match decode (BitVec.ofNat 8 (w % 2 ^ nbits)) with
    | .ok i => some i
    | .error _ => none
  else none

end Sys2Proof
end

