-- ==== Sys2Proof/Config.lean ====
section
/-! DEFINITION. The parameters fixed when the core is instantiated (10_state.md R26; 00_scope.md R7;
70_reset_and_hazards.md R244). A `Config` stands in the state, so that a claim is made for every value; the
instantiation the reset state carries has the spec's default where the spec decides one and an opaque constant
where the spec says OPEN. -/

namespace Sys2Proof

/-- PUMP_ALL_OFF_POLICY (R7, 43_command_builder.md R164). -/
inductive AllOffPolicy where
  | unsupported
  | generic
deriving DecidableEq, Repr

/-- Where one coil sits in a pump response: a byte of the 13-byte frame and a bit of that byte. -/
structure CoilPos where
  byte : Fin 13
  bit : Fin 8
deriving DecidableEq, Repr

/-- PUMP_COIL_DECODE (92_eei_decisions.md D12, 93_implementation_defined.md): where the pump's two coils sit in its
response. `coilWord` is the default, bits 0 and 1 of `RDLE32(d, 3)` through the Coil Bit Mapper
(42_frame_codec.md R134). The spec gives no list of the other values: `positions` is the model's
(DESIGN CHOICE, notes/assumptions/11.md). -/
inductive PumpCoilDecode where
  | coilWord
  | positions (coil0 coil1 : CoilPos)
deriving DecidableEq, Repr

/-- The configuration parameters of R26, with PUMP_COIL_DECODE of 92_eei_decisions.md D12. -/
structure Config where
  /-- CHECK_INBOUND_CRC -/
  checkInboundCrc : Bool
  /-- VALVE_A_WRITE_ADDR -/
  valveAWriteAddr : Half
  /-- VALVE_B_WRITE_ADDR -/
  valveBWriteAddr : Half
  /-- PUMP_POLL_FRAME -/
  pumpPollFrame : Frame
  /-- CANNED_PUMP_10_S1 -/
  cannedPump10S1 : Frame
  /-- CANNED_PUMP_01_S0 -/
  cannedPump01S0 : Frame
  /-- CANNED_PUMP_01_S1 -/
  cannedPump01S1 : Frame
  /-- PUMP_ALL_OFF_POLICY -/
  pumpAllOffPolicy : AllOffPolicy
  /-- PUMP_COIL_DECODE -/
  pumpCoilDecode : PumpCoilDecode
  /-- MAX_DATA -/
  maxData : Nat
deriving DecidableEq, Repr

/-- What the spec asks of an instantiation: 13 ≤ MAX_DATA ≤ 65535 (20_memory.md R52), and every stored frame short
enough for the 16-bit `RSP.dlen` that must count it (DEDUCED from 10_state.md R25, notes/assumptions/2.md). -/
def Config.wf (c : Config) : Bool :=
  decide (13 ≤ c.maxData ∧ c.maxData ≤ 65535 ∧ c.pumpPollFrame.length ≤ 65535 ∧ c.cannedPump10S1.length ≤ 65535 ∧
    c.cannedPump01S0.length ≤ 65535 ∧ c.cannedPump01S1.length ≤ 65535)

/-- OPEN in the spec (92_eei_decisions.md D15): no value is chosen. -/
opaque Config.openValveAWriteAddr : Half
/-- OPEN in the spec (D15). -/
opaque Config.openValveBWriteAddr : Half
/-- OPEN in the spec (D18). -/
opaque Config.openPumpPollFrame : Frame
/-- OPEN in the spec (D19). -/
opaque Config.openCannedPump10S1 : Frame
/-- OPEN in the spec (D19). -/
opaque Config.openCannedPump01S0 : Frame
/-- OPEN in the spec (D19). -/
opaque Config.openCannedPump01S1 : Frame
/-- OPEN in the spec (D24): how far MAX_DATA lies above its least value 13 (at most 65535 - 13). -/
opaque Config.openMaxDataAbove13 : Fin 65523

/-- The instantiation of the reset state: the defaults of 00_scope.md R7 and 92_eei_decisions.md D12 where the spec
decides one, the opaque constants where it says OPEN (a stored frame kept to the 65535 bytes `RSP.dlen` can count). -/
def Config.instantiated : Config where
  checkInboundCrc := false
  valveAWriteAddr := Config.openValveAWriteAddr
  valveBWriteAddr := Config.openValveBWriteAddr
  pumpPollFrame := Config.openPumpPollFrame.take 65535
  cannedPump10S1 := Config.openCannedPump10S1.take 65535
  cannedPump01S0 := Config.openCannedPump01S0.take 65535
  cannedPump01S1 := Config.openCannedPump01S1.take 65535
  pumpAllOffPolicy := .unsupported
  pumpCoilDecode := .coilWord
  maxData := Config.openMaxDataAbove13.val + 13

end Sys2Proof
end

