-- ==== Sys2Proof/Machine/State.lean ====
section
/-! DEFINITION. The state of the core (10_state.md R24-R26, 70_reset_and_hazards.md R240): the request register, the
response register, the configuration, and the two facts the spec states of the registers over time (a request is
submitted and not yet answered; a first response has been written). The read-only tables have fixed contents and are
definitions (Machine/Rom.lean); the transient datapath exists only inside one operation (R31). -/

namespace Sys2Proof.Machine

open Sys2Proof

/-- The request register (R24). `REQ.op`, `REQ.dev` and `REQ.st` are fields of `hdr`. -/
structure Req where
  hdr : Byte
  ncoil : Half
  coils : CoilSeq
  word : Word
  dlen : Half
  data : Frame
deriving DecidableEq, Repr

/-- The response register (R25). -/
structure Rsp where
  res : BitVec 3
  crc : Half
  word : Word
  mode : BitVec 1
  ncoil : Half
  coils : CoilSeq
  dlen : Half
  data : Frame
deriving DecidableEq, Repr

/-- Every field 0 and both sequences empty: what a field an operation does not produce is written (R25, R203). -/
def Rsp.zero : Rsp :=
  { res := 0, crc := 0, word := 0, mode := 0, ncoil := 0, coils := [], dlen := 0, data := [] }

/-- The request register with every field 0: the value the model names for reset, where the spec gives none
(DESIGN CHOICE, notes/assumptions/4.md). -/
def Req.zero : Req :=
  { hdr := 0, ncoil := 0, coils := [], word := 0, dlen := 0, data := [] }

/-- The state of the core. -/
structure State where
  /-- the configuration parameters (R26): no operation and no reset writes them -/
  cfg : Config
  /-- the request register (R24): the host writes it, the core only reads it -/
  req : Req
  /-- a request is submitted and not yet answered (70_reset_and_hazards.md R243, R246) -/
  pending : Bool
  /-- the response register (R25) -/
  rsp : Rsp
  /-- the response register holds a value: a first response has been written since reset (R242) -/
  answered : Bool
deriving DecidableEq, Repr

/-- Why the machine or the host interface stops. -/
inductive Fault where
  /-- Raised by `step`: the submitted request has `REQ.dlen` > MAX_DATA, and the core takes no step for it
  (20_memory.md R52, "a model is stuck on it"). Safe: it claims nothing of what follows. -/
  | requestNotAdmitted
  /-- Raised by the host's read of `RSP` before the first response, by no instruction: the spec itself asks for this
  fault (70_reset_and_hazards.md R242, 10_state.md R25, 93_implementation_defined.md "`fault`"). Safe. -/
  | rspReadBeforeFirstResponse
  /-- Raised by the host's submission of a request while the one before is unanswered, which the spec forbids
  (70_reset_and_hazards.md R246; 20_memory.md R47). Safe. -/
  | reqChangedWhileUnanswered
deriving DecidableEq, Repr

/-- Why an instruction has no meaning. -/
inductive Refusal where
  /-- Raised by `exec` for an instruction the model does not give a meaning: none here. Safe. -/
  | notModelled (mnemonic : String)
deriving DecidableEq, Repr

/-- The core right after reset (70_reset_and_hazards.md R240): idle, no response yet, the configuration as
instantiated. `REQ` and `RSP` hold no value in the spec; the zeros here are the model's (notes/assumptions/4.md and
5.md), and a host read of `RSP` faults until the first response. -/
def State.reset : State where
  cfg := Config.instantiated
  req := Req.zero
  pending := false
  rsp := Rsp.zero
  answered := false

end Sys2Proof.Machine
end

