-- ==== Sys2Proof/Machine/Flags.lean ====
section
/-! DEFINITION. The core has no flags (10_state.md R22); what stands in their place is the result code `RSP.res`
(30_encoding.md R64) and the mode bit `RSP.mode` (10_state.md R25). -/

namespace Sys2Proof.Machine

open Sys2Proof

/-- The four error results (60_exceptions.md R201). -/
inductive ErrorResult where
  | invalidFrame
  | invalidShape
  | unsupported
  | illegal
deriving DecidableEq, Repr

/-- The result code of success (R64). -/
def okCode : BitVec 3 := 0

/-- The result code of an error (R64). -/
def ErrorResult.code : ErrorResult → BitVec 3
  | .invalidFrame => 1
  | .invalidShape => 2
  | .unsupported => 3
  | .illegal => 4

/-- The device-reported control source (00_scope.md R14). -/
inductive Mode where
  | remoteMode
  | localMode
deriving DecidableEq, Repr

/-- `RSP.mode`: 1 = remote, 0 = local (10_state.md R25). -/
def Mode.bit : Mode → BitVec 1
  | .remoteMode => 1
  | .localMode => 0

end Sys2Proof.Machine
end

