-- ==== Sys2Proof/Machine/Operands.lean ====
section
/-! DEFINITION. Reading operands: byte sequences and the byte order of the values in them (00_scope.md R10;
20_memory.md R42-R45). No access has an alignment (R41). -/

namespace Sys2Proof.Machine

open Sys2Proof

/-- `f[i]` (R10). Every use has i < len(f), so the 0 beyond the end is never used (notes/assumptions/12.md). -/
def byteAt (f : Frame) (i : Nat) : Byte := f.getD i 0

/-- `f[a..b)`: the bytes at indices a ≤ i < b (R10). -/
def slice (f : Frame) (a b : Nat) : Frame := (f.take b).drop a

/-- `LE16(v)` = `[v[7:0], v[15:8]]` (R10): the byte order of the checksum (R42). -/
def le16 (v : Half) : Frame := [v.extractLsb' 0 8, v.extractLsb' 8 8]

/-- `BE16(v)` = `[v[15:8], v[7:0]]` (R10): the byte order of the other 16-bit protocol fields (R44). -/
def be16 (v : Half) : Frame := [v.extractLsb' 8 8, v.extractLsb' 0 8]

/-- `LE32(w)` (R10): the byte order of the packed coil word (R43). -/
def le32 (w : Word) : Frame :=
  [w.extractLsb' 0 8, w.extractLsb' 8 8, w.extractLsb' 16 8, w.extractLsb' 24 8]

/-- The 16-bit value of two bytes, low byte first: `f[k] OR (f[k+1] << 8)` (R42, R102). -/
def rdLE16 (f : Frame) (k : Nat) : Half :=
  (byteAt f k).setWidth 16 ||| ((byteAt f (k + 1)).setWidth 16 <<< 8)

/-- `RDLE32(f, k)` (R10, R43). -/
def rdLE32 (f : Frame) (k : Nat) : Word :=
  (byteAt f k).setWidth 32 ||| ((byteAt f (k + 1)).setWidth 32 <<< 8) |||
    ((byteAt f (k + 2)).setWidth 32 <<< 16) ||| ((byteAt f (k + 3)).setWidth 32 <<< 24)

/-- `zext_16(c)` of one coil (00_scope.md R9; 42_frame_codec.md R140). -/
def coilHalf (c : Coil) : Half := (BitVec.ofBool c).setWidth 16

/-- `c[i]` of a coil sequence (R11). Every use has i < len(c). -/
def coilAt (c : CoilSeq) (i : Nat) : Coil := c.getD i false

/-- The request register as the host writes it for a header, coils, a word and a buffer: each count field is the
length of its sequence (30_encoding.md R61, R67). -/
def Req.ofFields (hdr : Byte) (coils : CoilSeq) (word : Word) (data : Frame) : Req :=
  { hdr := hdr, ncoil := BitVec.ofNat 16 coils.length, coils := coils, word := word,
    dlen := BitVec.ofNat 16 data.length, data := data }

end Sys2Proof.Machine
end

