-- ==== Sys2Proof/Machine/Ops.lean ====
section
/-! DEFINITION. The operations every meaning shares: writing the response register (10_state.md R25) and reporting an
error, the one thing the core has where other machines take an exception (60_exceptions.md R200, R203, R205); and the
host's three accesses: submit, read the response, reset (60_exceptions.md R215; 70_reset_and_hazards.md R240-R246). -/

namespace Sys2Proof.Machine

open Sys2Proof

/-- The end of an operation: the whole response register is written and the request is answered (20_memory.md R46,
10_state.md R25). -/
def State.respond (s : State) (r : Rsp) : State :=
  { s with rsp := r, answered := true, pending := false }

/-- The outputs of a failed operation: the code, and every other field 0 (60_exceptions.md R203). -/
def Rsp.ofError (e : ErrorResult) : Rsp := { Rsp.zero with res := e.code }

/-- `return Error(CODE)` (00_scope.md R12): a failure is a value, the operation ends normally (R200). -/
def respondError (e : ErrorResult) (s : State) : Host.Outcome State Fault Refusal :=
  .next (s.respond (Rsp.ofError e))

/-- `OK(crc = v)`, all other fields 0. -/
def Rsp.ofCrc (v : Half) : Rsp := { Rsp.zero with res := okCode, crc := v }

/-- `OK(word = w)`, all other fields 0. -/
def Rsp.ofWord (w : Word) : Rsp := { Rsp.zero with res := okCode, word := w }

/-- `OK(ncoil = len(c), coils = c)`, all other fields 0. -/
def Rsp.ofCoils (c : CoilSeq) : Rsp :=
  { Rsp.zero with res := okCode, ncoil := BitVec.ofNat 16 c.length, coils := c }

/-- `OK(mode = m, ncoil = len(c), coils = c)`, all other fields 0. -/
def Rsp.ofReading (m : Mode) (c : CoilSeq) : Rsp :=
  { Rsp.zero with res := okCode, mode := m.bit, ncoil := BitVec.ofNat 16 c.length, coils := c }

/-- `OK(dlen = len(f), data = f)`, all other fields 0. -/
def Rsp.ofFrame (f : Frame) : Rsp :=
  { Rsp.zero with res := okCode, dlen := BitVec.ofNat 16 f.length, data := f }

/-- The request is admitted: `REQ.dlen` ≤ MAX_DATA (20_memory.md R52). -/
def admitted (s : State) : Bool := decide (s.req.dlen.toNat ≤ s.cfg.maxData)

/-- The host writes the whole request register and submits it (10_state.md R24). It may not while a request is
unanswered (70_reset_and_hazards.md R246). -/
def submit (r : Req) (s : State) : Except Fault State :=
  if s.pending then .error .reqChangedWhileUnanswered else .ok { s with req := r, pending := true }

/-- The host reads the response register. 70_reset_and_hazards.md R242: "A model faults a host read of `RSP` before the
first response rather than return any value (a read there is not defined)"; so too 10_state.md R25,
92_eei_decisions.md D25 and the table of 93_implementation_defined.md. No operation and no step reads `RSP`. -/
def readRsp (s : State) : Except Fault Rsp :=
  if s.answered then .ok s.rsp else .error .rspReadBeforeFirstResponse

/-- Reset (70_reset_and_hazards.md R240-R243): the configuration stays, `REQ` and `RSP` lose their value, and an
unanswered request is dropped. -/
def hardReset (s : State) : State :=
  { s with req := Req.zero, pending := false, rsp := Rsp.zero, answered := false }

end Sys2Proof.Machine
end

