-- ==== Sys2Proof/Machine/Checksum.lean ====
section
/-! DEFINITION. The Checksum Engine (40_checksum.md) and the operation CRC16. -/

namespace Sys2Proof.Machine

open Sys2Proof

/-- CRC_INIT (R100; 00_scope.md R6). -/
def crcInit : Half := 0xFFFF

/-- CRC_POLY, bit-reflected (R100; 00_scope.md R6). -/
def crcPoly : Half := 0xA001

/-- One of the 8 rounds (R100): shift right, and XOR the polynomial if the low bit was set. -/
def crcRound (acc : Half) : Half :=
  if acc.getLsbD 0 then (acc >>> 1) ^^^ crcPoly else acc >>> 1

/-- `n` rounds. -/
def crcRounds : Nat → Half → Half
  | 0, acc => acc
  | n + 1, acc => crcRounds n (crcRound acc)

/-- One byte: XOR it into the low byte of the accumulator, then 8 rounds (R100). -/
def crcByte (acc : Half) (b : Byte) : Half := crcRounds 8 (acc ^^^ b.setWidth 16)

/-- `CRC16(b)` (R100): bytes in frame order, from CRC_INIT, with no final XOR. -/
def crc16 (f : Frame) : Half := f.foldl crcByte crcInit

/-- `CrcAppend(f)` (R101). -/
def crcAppend (f : Frame) : Frame := f ++ le16 (crc16 f)

/-- `CrcValid(f)` (R102): false below 2 bytes. -/
def crcValid (f : Frame) : Bool :=
  decide (2 ≤ f.length) && crc16 (slice f 0 (f.length - 2)) == rdLE16 f (f.length - 2)

/-- CRC16 (R103). `st` and `dev` are not read; the reserved header bits are the decoder's check. -/
def execCrc16 (_st : Bool) (_dev : DevCode) (s : State) : Host.Outcome State Fault Refusal :=
  .next (s.respond (Rsp.ofCrc (crc16 s.req.data)))

end Sys2Proof.Machine
end

