-- ==== Sys2Proof/Machine/Rom.lean ====
section
/-! DEFINITION. The read-only tables of the Device Profiles (10_state.md R27-R30): fixed contents, written by no
operation (20_memory.md R50); the cells the spec leaves OPEN are fields of the configuration. -/

namespace Sys2Proof.Machine

open Sys2Proof

/-- Which byte of a response tells the mode (R27). -/
inductive ModeRule where
  /-- byte 7 = 4 is remote, else local -/
  | valve
  /-- byte 10 ≠ 0 is local, else remote -/
  | pump
deriving DecidableEq, Repr

/-- One column of `ROM.profile` (R27). -/
structure Profile where
  respLen : Nat
  respFc : Byte
  ncoil : Nat
  reorder : Bool
  modeRule : ModeRule
  coilOff : Nat
  writeAddr : Half
  hasCanned : Bool
deriving DecidableEq, Repr

/-- `ROM.profile[dev].ncoil`: 27, 27, 2 (R27; 00_scope.md R6). -/
def ncoilOf : Device → Nat
  | .va => 27
  | .vb => 27
  | .pump => 2

/-- `ROM.profile[dev].reorder`: 1 for VA alone (R27, R110). -/
def reorderOf : Device → Bool
  | .va => true
  | .vb => false
  | .pump => false

/-- `ROM.profile[dev]` (R27). -/
def profile (cfg : Config) : Device → Profile
  | .va =>
    { respLen := 11, respFc := 3, ncoil := ncoilOf .va, reorder := reorderOf .va, modeRule := .valve, coilOff := 3,
      writeAddr := cfg.valveAWriteAddr, hasCanned := false }
  | .vb =>
    { respLen := 11, respFc := 3, ncoil := ncoilOf .vb, reorder := reorderOf .vb, modeRule := .valve, coilOff := 3,
      writeAddr := cfg.valveBWriteAddr, hasCanned := false }
  | .pump =>
    { respLen := 13, respFc := 4, ncoil := ncoilOf .pump, reorder := reorderOf .pump, modeRule := .pump, coilOff := 3,
      writeAddr := 0x0000, hasCanned := true }

/-- The valve poll frame `01 03 00 0A 00 03 25 C9` (R28; 00_scope.md R6). -/
def valvePollFrame : Frame := [0x01, 0x03, 0x00, 0x0A, 0x00, 0x03, 0x25, 0xC9]

/-- `ROM.poll[dev]` (R28). -/
def poll (cfg : Config) : Device → Frame
  | .va => valvePollFrame
  | .vb => valvePollFrame
  | .pump => cfg.pumpPollFrame

/-- The one canned frame the spec gives, `01 06 00 00 00 00 89 CA` (R29; 30_encoding.md R75). -/
def cannedPump10S0 : Frame := [0x01, 0x06, 0x00, 0x00, 0x00, 0x00, 0x89, 0xCA]

/-- `ROM.canned[c0 c1][s]` (R29); no other key has an entry. -/
def canned (cfg : Config) (c0 c1 s : Bool) : Option Frame :=
  match c0, c1, s with
  | true, false, false => some cannedPump10S0
  | true, false, true => some cfg.cannedPump10S1
  | false, true, false => some cfg.cannedPump01S0
  | false, true, true => some cfg.cannedPump01S1
  | false, false, _ => none
  | true, true, _ => none

/-- `ROM.perm[i]` (R30, 41_coil_mapper.md R110): 26 - i in the window 9 ≤ i ≤ 17, else i. -/
def perm (i : Nat) : Nat := if 9 ≤ i ∧ i ≤ 17 then 26 - i else i

end Sys2Proof.Machine
end

