-- ==== Sys2Proof/Machine/CoilMapper.lean ====
section
/-! DEFINITION. The Coil Bit Mapper (41_coil_mapper.md) and the operations MAP_DECODE and MAP_ENCODE. -/

namespace Sys2Proof.Machine

open Sys2Proof

/-- `Rev(s)`: the sequence t with t[i] = s[ROM.perm[i]] for every i (R110). The core uses it on 27 elements only. -/
def rev (s : CoilSeq) : CoilSeq := (List.range s.length).map fun i => coilAt s (perm i)

/-- The coil sequence in the other order where the device has the reorder quirk (R110). -/
def reordered (dev : Device) (s : CoilSeq) : CoilSeq := if reorderOf dev then rev s else s

/-- Bits 0 .. n-1 of a word as a coil sequence: s[i] = w[i] (R112). -/
def unpackBits (n : Nat) (w : Word) : CoilSeq := (List.range n).map fun i => w.getLsbD i

/-- The word whose bit i is c[i], and 0 above the sequence (R114). -/
def packBits : CoilSeq → Word
  | [] => 0
  | b :: c => (BitVec.ofBool b).setWidth 32 ||| (packBits c <<< 1)

/-- `MapDecode(w, dev)` (R112); bits above the coil count are not read. -/
def mapDecode (w : Word) (dev : Device) : CoilSeq := reordered dev (unpackBits (ncoilOf dev) w)

/-- `MapEncode(c, dev)` (R114): INVALID_SHAPE, or the word with 0 in bits N .. 31. -/
def mapEncode (c : CoilSeq) (dev : Device) : Except ErrorResult Word :=
  if c.length ≠ ncoilOf dev then .error .invalidShape else .ok (packBits (reordered dev c))

/-- MAP_DECODE (R113). -/
def execMapDecode (_st : Bool) (dev : DevCode) (s : State) : Host.Outcome State Fault Refusal :=
  match dev.device? with
  | none => respondError .illegal s
  | some d => .next (s.respond (Rsp.ofCoils (mapDecode s.req.word d)))

/-- MAP_ENCODE (R115). -/
def execMapEncode (_st : Bool) (dev : DevCode) (s : State) : Host.Outcome State Fault Refusal :=
  match dev.device? with
  | none => respondError .illegal s
  | some d =>
    match mapEncode s.req.coils d with
    | .error e => respondError e s
    | .ok w => .next (s.respond (Rsp.ofWord w))

end Sys2Proof.Machine
end

