-- ==== Sys2Proof/Machine/FrameCodec.lean ====
section
/-! DEFINITION. The Frame Codec (42_frame_codec.md) and the operations PARSE, BUILD and POLL_REQ. -/

namespace Sys2Proof.Machine

open Sys2Proof

/-- What a valid response is decoded to: `(mode, coils)` (R130; 00_scope.md R14). -/
structure Reading where
  mode : Mode
  coils : CoilSeq
deriving DecidableEq, Repr

/-- The mode of a response (R134). -/
def readMode (rule : ModeRule) (d : Frame) : Mode :=
  match rule with
  | .valve => if byteAt d 7 = 0x04 then .remoteMode else .localMode
  | .pump => if byteAt d 10 ≠ 0x00 then .localMode else .remoteMode

/-- The bit of a response at a given position (PUMP_COIL_DECODE, 92_eei_decisions.md D12). -/
def bitAtPos (d : Frame) (p : CoilPos) : Coil := (byteAt d p.byte.val).getLsbD p.bit.val

/-- The coils of a response (R134): the coil word at `coil_off` through the mapper. The pump's place of its coils is
the parameter PUMP_COIL_DECODE, whose default is this same rule (92_eei_decisions.md D12). -/
def readCoils (cfg : Config) (d : Frame) (dev : Device) : CoilSeq :=
  match dev, cfg.pumpCoilDecode with
  | .pump, .positions p0 p1 => [bitAtPos d p0, bitAtPos d p1]
  | _, _ => mapDecode (rdLE32 d (profile cfg dev).coilOff) dev

/-- `ParseFrame(d, dev)` (R130): the length check (R131), the function-code check (R132), the checksum check where it
is configured (R133), in this order, and then the reading (R134). `none` is `Invalid`. -/
def parseFrame (cfg : Config) (d : Frame) (dev : Device) : Option Reading :=
  if d.length ≠ (profile cfg dev).respLen then none
  else if byteAt d 1 ≠ (profile cfg dev).respFc then none
  else if cfg.checkInboundCrc && !crcValid d then none
  else some { mode := readMode (profile cfg dev).modeRule d, coils := readCoils cfg d dev }

/-- PARSE (R135). -/
def execParse (_st : Bool) (dev : DevCode) (s : State) : Host.Outcome State Fault Refusal :=
  match dev.device? with
  | none => respondError .illegal s
  | some d =>
    match parseFrame s.cfg s.req.data d with
    | none => respondError .invalidFrame s
    | some r => .next (s.respond (Rsp.ofReading r.mode r.coils))

/-- DEV_ADDR (R140; 00_scope.md R7). -/
def devAddr : Byte := 0x01

/-- WRITE_FC (00_scope.md R7; 30_encoding.md R74). -/
def writeFc : Byte := 0x10

/-- WRITE_QTY (00_scope.md R7; 30_encoding.md R74). -/
def writeQty : Half := 0x0002

/-- WRITE_BYTES (00_scope.md R7; 30_encoding.md R74). -/
def writeBytes : Byte := 0x04

/-- The first 7 bytes of a write frame (R140; 30_encoding.md R74). -/
def writeHeader (cfg : Config) (dev : Device) : Frame :=
  [devAddr] ++ [writeFc] ++ be16 (profile cfg dev).writeAddr ++ be16 writeQty ++ [writeBytes]

/-- The pump's payload: one big-endian register per coil, not the mapper's word (R140, R117). -/
def pumpPayload (c : CoilSeq) : Frame := be16 (coilHalf (coilAt c 0)) ++ be16 (coilHalf (coilAt c 1))

/-- The 4-byte payload of a write frame (R140). -/
def writePayload (c : CoilSeq) (dev : Device) : Except ErrorResult Frame :=
  match dev with
  | .va => (mapEncode c .va).map le32
  | .vb => (mapEncode c .vb).map le32
  | .pump => .ok (pumpPayload c)

/-- `BuildFrame(c, dev)` (R140): INVALID_SHAPE, or a frame of format WRITE_MULTI. The status is no operand. -/
def buildFrame (cfg : Config) (c : CoilSeq) (dev : Device) : Except ErrorResult Frame :=
  if c.length ≠ (profile cfg dev).ncoil then .error .invalidShape
  else (writePayload c dev).map fun payload => crcAppend (writeHeader cfg dev ++ payload)

/-- An operation that ends with a frame or an error. -/
def respondFrame (r : Except ErrorResult Frame) (s : State) : Host.Outcome State Fault Refusal :=
  match r with
  | .error e => respondError e s
  | .ok f => .next (s.respond (Rsp.ofFrame f))

/-- BUILD (R141). -/
def execBuild (_st : Bool) (dev : DevCode) (s : State) : Host.Outcome State Fault Refusal :=
  match dev.device? with
  | none => respondError .illegal s
  | some d => respondFrame (buildFrame s.cfg s.req.coils d) s

/-- POLL_REQ (R145): the stored frame; the Checksum Engine is not run. -/
def execPollReq (_st : Bool) (dev : DevCode) (s : State) : Host.Outcome State Fault Refusal :=
  match dev.device? with
  | none => respondError .illegal s
  | some d => respondFrame (.ok (poll s.cfg d)) s

end Sys2Proof.Machine
end

