-- ==== Sys2Proof/Machine/CommandBuilder.lean ====
section
/-! DEFINITION. The Command Builder (43_command_builder.md) and the operation COMMAND. -/

namespace Sys2Proof.Machine

open Sys2Proof

/-- `CannedLookup(c, s, dev)` (R162): defined only for the pump and two coils; the frame is returned as stored. -/
def cannedLookup (cfg : Config) (c : CoilSeq) (st : Bool) (dev : Device) : Option Frame :=
  match dev with
  | .pump => if c.length = 2 then canned cfg (coilAt c 0) (coilAt c 1) st else none
  | .va => none
  | .vb => none

/-- The frame or error of a CommandRequest (R160-R166): validation first (R161); the canned path where the device has a
canned table with an entry (R162); UNSUPPORTED for the pump's `[0, 0]` under that policy (R164); else the generic path
(R165). -/
def commandFrame (cfg : Config) (c : CoilSeq) (st : Bool) (dev : Device) : Except ErrorResult Frame :=
  if c.length ≠ (profile cfg dev).ncoil then .error .invalidShape
  else if (profile cfg dev).hasCanned = false then buildFrame cfg c dev
  else
    match cannedLookup cfg c st dev with
    | some f => .ok f
    | none =>
      match coilAt c 0, coilAt c 1, cfg.pumpAllOffPolicy with
      | false, false, .unsupported => .error .unsupported
      | _, _, _ => buildFrame cfg c dev

/-- COMMAND (R163). -/
def execCommand (st : Bool) (dev : DevCode) (s : State) : Host.Outcome State Fault Refusal :=
  match dev.device? with
  | none => respondError .illegal s
  | some d => respondFrame (commandFrame s.cfg s.req.coils st d) s

end Sys2Proof.Machine
end

