-- ==== Sys2Proof/Machine/Dispatch.lean ====
section
/-! DEFINITION. One arm per operation of 30_encoding.md R62. -/

namespace Sys2Proof.Machine

open Sys2Proof

def exec (i : Instr) (s : State) : Host.Outcome State Fault Refusal :=
  match i with
  | .crc16 st dev => Sys2Proof.Machine.execCrc16 st dev s
  | .mapDecode st dev => Sys2Proof.Machine.execMapDecode st dev s
  | .mapEncode st dev => Sys2Proof.Machine.execMapEncode st dev s
  | .parse st dev => Sys2Proof.Machine.execParse st dev s
  | .build st dev => Sys2Proof.Machine.execBuild st dev s
  | .pollReq st dev => Sys2Proof.Machine.execPollReq st dev s
  | .command st dev => Sys2Proof.Machine.execCommand st dev s

end Sys2Proof.Machine
end

