-- ==== Sys2Proof/Machine/Step.lean ====
section
/-! DEFINITION. One step of the core: the submitted request is decoded and performed, atomically (20_memory.md R46;
70_reset_and_hazards.md R247). -/

namespace Sys2Proof.Machine

open Sys2Proof

/-- One step. With no request submitted the core is idle (70_reset_and_hazards.md R240) and its state does not change
(DESIGN CHOICE, notes/assumptions/7.md). A request that is not admitted has no step (20_memory.md R52). An illegal
header is answered ILLEGAL and no other field is read (30_encoding.md R65). Any other request is performed. -/
def step (s : State) : Host.Outcome State Fault Refusal :=
  if s.pending = false then .next s
  else if admitted s = false then .fault .requestNotAdmitted
  else
    match decode s.req.hdr with
    | .error _ => respondError .illegal s
    | .ok i => exec i s

/-- The state with a request whose header has the bits `w` submitted, its other fields as they are (the operand
registers hold what they held); a buffer that would not be admitted is emptied, so that the very next step performs
the request. It stands for the host's write and submission (notes/assumptions/13.md). -/
def State.withFetchWord (s : State) (nbits w : Nat) : State :=
  { s with
    req :=
      { s.req with
        hdr := BitVec.ofNat 8 (w % 2 ^ nbits)
        dlen := if admitted s then s.req.dlen else 0
        data := if admitted s then s.req.data else [] }
    pending := true }

end Sys2Proof.Machine
end

