-- ==== Sys2Proof/Machine/Serve.lean ====
section
/-! DEFINITION. A run of the core: the host submits requests in order and reads each response before the next
(20_memory.md R47; 60_exceptions.md R215, R218). "A model's observation of a run is the list of its responses." -/

namespace Sys2Proof.Machine

open Sys2Proof

/-- One request served: the host submits it, the core performs it, the host reads the response. -/
def serveOne (r : Req) (s : State) : Host.Outcome (State × Rsp) Fault Refusal :=
  match submit r s with
  | .error f => .fault f
  | .ok s1 =>
    match step s1 with
    | .fault f => .fault f
    | .refused e => .refused e
    | .next s2 =>
      match readRsp s2 with
      | .error f => .fault f
      | .ok p => .next (s2, p)

/-- A finite sequence of requests served in order, with the list of their responses (R218). -/
def serve : List Req → State → Host.Outcome (State × List Rsp) Fault Refusal
  | [], s => .next (s, [])
  | r :: rs, s =>
    match serveOne r s with
    | .fault f => .fault f
    | .refused e => .refused e
    | .next (s1, p) =>
      match serve rs s1 with
      | .fault f => .fault f
      | .refused e => .refused e
      | .next (s2, ps) => .next (s2, p :: ps)

end Sys2Proof.Machine
end

