-- ==== Sys2Proof/Safety.lean ====
section
/-! DEFINITION. What a well-formed state is, and what counts as a safe run: the terms claims are stated in. -/

namespace Sys2Proof.Machine

open Sys2Proof

/-- Each count field of `REQ` is the length of its sequence (30_encoding.md R61). -/
def Req.wf (r : Req) : Bool := decide (r.coils.length = r.ncoil.toNat ∧ r.data.length = r.dlen.toNat)

/-- What every response satisfies: each count field is the length of its sequence (10_state.md R25), the result codes
5, 6 and 7 are never written (30_encoding.md R64), and a failed operation leaves every other field 0
(60_exceptions.md R203). -/
def Rsp.wf (r : Rsp) : Bool :=
  decide (r.coils.length = r.ncoil.toNat ∧ r.data.length = r.dlen.toNat ∧ r.res.toNat ≤ 4 ∧
    (r.res ≠ 0 → r = { Rsp.zero with res := r.res }))

/-- The invariant of the machine: the instantiation is a legal one, both registers are coherent, and a response
register that holds no value yet is as reset left it. -/
structure Inv (s : State) : Prop where
  cfg : s.cfg.wf = true
  req : s.req.wf = true
  rsp : s.rsp.wf = true
  unanswered : s.answered = false → s.rsp = Rsp.zero

/-- The core is waiting for a request: none is submitted and unanswered (70_reset_and_hazards.md R240). -/
def State.idle (s : State) : Prop := s.pending = false

/-- A request is submitted and admitted (20_memory.md R52): the core owes one response (60_exceptions.md R215). -/
def State.due (s : State) : Prop := s.pending = true ∧ admitted s = true

/-- A safe step ends in a next state. -/
def SafeStep (s : State) : Prop := ∃ t, step s = .next t

/-- The host's request is one it may submit (20_memory.md R52). -/
def Req.admissible (cfg : Config) (r : Req) : Prop := r.dlen.toNat ≤ cfg.maxData

end Sys2Proof.Machine
end

