-- ==== Sys2Proof/Certificates/Slice0/Obligations.lean ====
section
/-! DEFINITION. The statements for the provers. Each one's docstring names the rule of spec/ it formalises. A response
is written out field by field, and a next state as the whole state with the response written and the request answered,
so that a result statement says what the operation leaves unchanged too: all of `cfg` and all of `req`. That "submitted
and unanswered" and "a response is held" are the fields `pending` and `answered` is the model's (DEDUCED,
notes/assumptions/6.md). -/

open Sys2Proof Sys2Proof.Machine

/-! ### The header byte -/

/-- The headers of 30_encoding.md R67's notation, each bit written out as `r r s d d o o o` (R60), decode to the
operations it says. -/
def Obligations.SpecHeadersDecodeAsWritten : Prop :=
  decode 0b00000000#8 = .ok (.crc16 false .va) ∧ decode 0b00000001#8 = .ok (.mapDecode false .va) ∧
  decode 0b00001010#8 = .ok (.mapEncode false .vb) ∧ decode 0b00010011#8 = .ok (.parse false .pump) ∧
  decode 0b00010100#8 = .ok (.build false .pump) ∧ decode 0b00000101#8 = .ok (.pollReq false .va) ∧
  decode 0b00110110#8 = .ok (.command true .pump) ∧ decode 0b00111000#8 = .ok (.crc16 true .reserved)

/-- 30_encoding.md R68: the header of a legal operation is `(st << 5) OR (dev << 3) OR op`, and the legal headers are
the listed ones, with CRC16's 0x18 and 0x38. -/
def Obligations.LegalHeadersAreTheListedOnes : Prop :=
  (∀ i : Instr, i.wf = true →
    encode i = (if i.st then 32#8 else 0#8) ||| ((i.dev.toBits.setWidth 8) <<< 3) ||| i.op.setWidth 8) ∧
  ∀ h : Byte, (decode h).toOption.isSome = true ↔
    h ∈ [0x00#8, 0x08#8, 0x10#8, 0x20#8, 0x28#8, 0x30#8, 0x01#8, 0x09#8, 0x11#8, 0x21#8, 0x29#8, 0x31#8,
      0x02#8, 0x0A#8, 0x12#8, 0x22#8, 0x2A#8, 0x32#8, 0x03#8, 0x0B#8, 0x13#8, 0x23#8, 0x2B#8, 0x33#8,
      0x04#8, 0x0C#8, 0x14#8, 0x24#8, 0x2C#8, 0x34#8, 0x05#8, 0x0D#8, 0x15#8, 0x25#8, 0x2D#8, 0x35#8,
      0x06#8, 0x0E#8, 0x16#8, 0x26#8, 0x2E#8, 0x36#8, 0x18#8, 0x38#8]

/-- Every operation with a legal header is read back from its header, with its status flag and device code at every
value the encoding admits (30_encoding.md R60, R62, R63, R68). -/
def Obligations.DecodeOfEncodeIsTheOperation : Prop :=
  ∀ i : Instr, i.wf = true → decode (encode i) = .ok i

/-- Each header byte has one meaning: what the decoder reads is well formed and encodes to that byte. -/
def Obligations.EncodeOfDecodeIsTheHeader : Prop :=
  ∀ (h : Byte) (i : Instr), decode h = .ok i → i.wf = true ∧ encode i = h

/-! ### The step -/

/-- A submitted, admitted request whose header decodes is performed by `exec`; the step adds nothing around it
(20_memory.md R46, 70_reset_and_hazards.md R247). -/
def Obligations.StepPerformsTheDecodedOperation : Prop :=
  ∀ (s : State) (i : Instr), s.pending = true → s.req.dlen.toNat ≤ s.cfg.maxData → decode s.req.hdr = .ok i →
    step s = exec i s

/-- 30_encoding.md R65 (the spec's own decision D23): reserved header bits, operation 7, or device 3 in an operation 1
to 6 make the request illegal, and it is answered ILLEGAL whatever its other fields hold. -/
def Obligations.ReservedHeaderIsAnsweredIllegal : Prop :=
  ∀ s : State, s.pending = true → s.req.dlen.toNat ≤ s.cfg.maxData →
    (s.req.hdr.extractLsb' 6 2 ≠ 0#2 ∨ s.req.hdr.extractLsb' 0 3 = 7#3 ∨
      (s.req.hdr.extractLsb' 3 2 = 3#2 ∧ s.req.hdr.extractLsb' 0 3 ≠ 0#3)) →
    step s = .next { s with
      rsp := { res := 4, crc := 0, word := 0, mode := 0, ncoil := 0, coils := [], dlen := 0, data := [] }
      answered := true, pending := false }

/-- The host's submission as the model stands for it (`State.withFetchWord`, DESIGN CHOICE, notes/assumptions/13.md):
from any state, the very next step performs the operation whose header was placed. -/
def Obligations.PlacedHeaderIsPerformedNext : Prop :=
  ∀ (s : State) (w : Nat) (i : Instr), decodeTableWord 8 w = some i →
    step (s.withFetchWord 8 w) = exec i (s.withFetchWord 8 w)

/-- 20_memory.md R52 (the spec's own decision D24): a request with `REQ.dlen` > MAX_DATA is not admitted and has no
step. That this holds of an illegal header too, which is then stuck and not answered ILLEGAL, is the model's deduction
and not R52's words (DEDUCED, notes/assumptions/8.md). MAX_DATA is between 13 and 65535 in the instantiation reset
starts from, where the model leaves it opaque (notes/assumptions/3.md). -/
def Obligations.RequestAboveMaxDataHasNoStep : Prop :=
  (∀ s : State, s.pending = true → s.cfg.maxData < s.req.dlen.toNat → step s = .fault .requestNotAdmitted) ∧
  13 ≤ State.reset.cfg.maxData ∧ State.reset.cfg.maxData ≤ 65535

/-- The model's choice (DESIGN CHOICE, notes/assumptions/7.md): with no request submitted a step changes nothing. -/
def Obligations.IdleStepChangesNothing : Prop :=
  ∀ s : State, s.pending = false → step s = .next s

/-- 60_exceptions.md R200: no admitted request traps, halts or hangs: whatever it asks, the step ends normally with
one response, a failure being a nonzero result code with every other output 0, and the core is ready for the next
request; nothing but the response and the two handshake facts changes. -/
def Obligations.EveryAdmittedRequestIsAnswered : Prop :=
  ∀ s : State, s.pending = true → s.req.dlen.toNat ≤ s.cfg.maxData →
    ∃ p : Rsp, step s = .next { s with rsp := p, answered := true, pending := false } ∧
      (p.res ≠ 0 → p = { res := p.res, crc := 0, word := 0, mode := 0, ncoil := 0, coils := [], dlen := 0, data := [] })

/-- 10_state.md R24, R26: no step writes the configuration or the request register, and a step writes the response
register only in answering a request. That a step with no request submitted is an unchanged next state is the model's
choice (DESIGN CHOICE, notes/assumptions/7.md). -/
def Obligations.StepWritesOnlyTheResponse : Prop :=
  ∀ s t : State, step s = .next t → t.cfg = s.cfg ∧ t.req = s.req ∧ t.pending = false ∧
    (s.pending = false → t.rsp = s.rsp ∧ t.answered = s.answered) ∧ (s.pending = true → t.answered = true)

/-- 60_exceptions.md R203 (the spec's own decision D6): a failed operation leaves every output but the result code 0,
and no part of a frame. -/
def Obligations.FailedOperationOutputsAreZero : Prop :=
  ∀ s t : State, s.pending = true → step s = .next t → t.rsp.res ≠ 0 →
    t.rsp.crc = 0 ∧ t.rsp.word = 0 ∧ t.rsp.mode = 0 ∧ t.rsp.ncoil = 0 ∧ t.rsp.coils = [] ∧ t.rsp.dlen = 0 ∧
    t.rsp.data = []

/-- 60_exceptions.md R201 (the codes are the spec's own decision D5): INVALID_FRAME comes from PARSE alone,
INVALID_SHAPE from MAP_ENCODE, BUILD and COMMAND, UNSUPPORTED from COMMAND, and ILLEGAL from no operation with a legal
header. -/
def Obligations.ErrorsComeFromTheirOperations : Prop :=
  ∀ (i : Instr) (s t : State), i.wf = true → exec i s = .next t →
    (t.rsp.res = 1 → i.op = 3) ∧ (t.rsp.res = 2 → i.op = 2 ∨ i.op = 4 ∨ i.op = 6) ∧ (t.rsp.res = 3 → i.op = 6) ∧
    t.rsp.res ≠ 4

/-- 10_state.md R32: the response is a function of the request and the configuration alone: whatever the two states
differ in, equal `REQ` under equal configuration gives the equal response, or is stuck in both. -/
def Obligations.ResponseDependsOnRequestAndConfiguration : Prop :=
  ∀ s t : State, s.pending = true → t.pending = true → s.req = t.req → s.cfg = t.cfg →
    (∃ s' t', step s = .next s' ∧ step t = .next t' ∧ s'.rsp = t'.rsp) ∨
    (step s = .fault .requestNotAdmitted ∧ step t = .fault .requestNotAdmitted)

/-- 30_encoding.md R66 (the spec's own decisions D3, D31): a field an operation does not read (10_state.md R24 says
which each reads) does not change its result; CRC16 ignores the device and the status, and every operation but COMMAND
ignores the status. -/
def Obligations.UnreadFieldsDoNotChangeTheResult : Prop :=
  ∀ (s t : State) (a b : Bool) (d e : DevCode), s.cfg = t.cfg →
    (s.req.data = t.req.data →
      ∃ p, exec (.crc16 a d) s = .next (s.respond p) ∧ exec (.crc16 b e) t = .next (t.respond p)) ∧
    (s.req.word = t.req.word →
      ∃ p, exec (.mapDecode a d) s = .next (s.respond p) ∧ exec (.mapDecode b d) t = .next (t.respond p)) ∧
    (s.req.coils = t.req.coils →
      ∃ p, exec (.mapEncode a d) s = .next (s.respond p) ∧ exec (.mapEncode b d) t = .next (t.respond p)) ∧
    (s.req.data = t.req.data →
      ∃ p, exec (.parse a d) s = .next (s.respond p) ∧ exec (.parse b d) t = .next (t.respond p)) ∧
    (s.req.coils = t.req.coils →
      ∃ p, exec (.build a d) s = .next (s.respond p) ∧ exec (.build b d) t = .next (t.respond p)) ∧
    (∃ p, exec (.pollReq a d) s = .next (s.respond p) ∧ exec (.pollReq b d) t = .next (t.respond p)) ∧
    (s.req.coils = t.req.coils →
      ∃ p, exec (.command a d) s = .next (s.respond p) ∧ exec (.command a d) t = .next (t.respond p))

/-- The invariant of the machine is kept by every step from every state that has it: coherent counts (10_state.md R24,
R25; 30_encoding.md R61), result codes up to 4 (R64), zero outputs on error (60_exceptions.md R203), and MAX_DATA in
its range (20_memory.md R52). Two clauses of it are the model's and no rule's: a stored frame has at most 65535 bytes
(DEDUCED, notes/assumptions/2.md), and a response register that holds no response yet is the zeros reset left (DESIGN
CHOICE, notes/assumptions/5.md). -/
def Obligations.EveryStepKeepsTheInvariant : Prop :=
  ∀ s t : State, Inv s → step s = .next t → Inv t

/-- The reset state has the invariant, whatever the OPEN parameters are. The spec says `REQ` and `RSP` hold no value
after reset (70_reset_and_hazards.md R241, R242), so what is coherent here is the model's zeros (DESIGN CHOICE,
notes/assumptions/4.md and 5.md), and the stored frames are short enough by the model's bound of 65535 bytes (DEDUCED,
notes/assumptions/2.md); MAX_DATA is the opaque value of notes/assumptions/3.md. -/
def Obligations.ResetHasTheInvariant : Prop := Inv State.reset

/-- The host's two writes keep the invariant: submitting a request whose counts are the lengths of its sequences
(30_encoding.md R61), and reset. After reset the spec says `REQ` and `RSP` hold no value; that the invariant holds
there is said of the model's zeros (DESIGN CHOICE, notes/assumptions/4.md and 5.md). The invariant's bound on stored
frames is the model's too (DEDUCED, notes/assumptions/2.md). -/
def Obligations.HostActionsKeepTheInvariant : Prop :=
  ∀ s : State, Inv s →
    Inv (hardReset s) ∧ ∀ (r : Req) (t : State), r.wf = true → submit r s = .ok t → Inv t

/-! ### The host interface, reset and runs -/

/-- 70_reset_and_hazards.md R242 (the spec's own decision D25): `RSP` holds no value after reset and a host read of it
faults until the first operation ends; then it holds the last response until the next one replaces it: a read gives
it, and neither an idle step nor a submission changes it. That an idle step is a next state at all is the model's
choice (DESIGN CHOICE, notes/assumptions/7.md), and that a submission can be refused is its deduction (DEDUCED,
notes/assumptions/14.md). -/
def Obligations.ResponseReadFaultsUntilTheFirstResponse : Prop :=
  readRsp State.reset = .error .rspReadBeforeFirstResponse ∧
  (∀ s : State, readRsp (hardReset s) = .error .rspReadBeforeFirstResponse) ∧
  (∀ s t : State, s.pending = true → step s = .next t → readRsp t = .ok t.rsp) ∧
  (∀ s t : State, s.pending = false → step s = .next t → readRsp t = readRsp s) ∧
  (∀ (r : Req) (s t : State), submit r s = .ok t → readRsp t = readRsp s)

/-- 70_reset_and_hazards.md R240, R243 (the spec's own decision D25): reset keeps the configuration, a request
unanswered when reset comes gets no response (none is pending and a read faults), and a request submitted after reset
is answered as it would have been without the reset. The clause that a step right after reset answers the same state
is the model's choice of what an idle step does, not R243's (DESIGN CHOICE, notes/assumptions/7.md). -/
def Obligations.ResetLosesOnlyTheUnansweredRequest : Prop :=
  (∀ s : State, (hardReset s).cfg = s.cfg ∧ (hardReset s).pending = false ∧ step (hardReset s) = .next (hardReset s) ∧
    readRsp (hardReset s) = .error .rspReadBeforeFirstResponse) ∧
  (∀ (s t : State) (r : Req) (p : Rsp), s.pending = false → serveOne r s = .next (t, p) →
    ∃ t', serveOne r (hardReset s) = .next (t', p))

/-- 70_reset_and_hazards.md R246, 20_memory.md R47: the host cannot change `REQ` while a request is unanswered (the
fault is the model's, DEDUCED, notes/assumptions/14.md); an idle core accepts any request whole. -/
def Obligations.SubmissionWaitsForTheResponse : Prop :=
  (∀ (r : Req) (s : State), s.pending = true → submit r s = .error .reqChangedWhileUnanswered) ∧
  (∀ (r : Req) (s : State), s.pending = false → submit r s = .ok { s with req := r, pending := true })

/-- 70_reset_and_hazards.md R240 and the defaults of 00_scope.md R7: after reset the core is idle, with no response
yet, no inbound checksum check, and the pump's `[0, 0]` unsupported; and PUMP_COIL_DECODE has the default of
92_eei_decisions.md D12 (the spec's own decision; it is not in R7's table). -/
def Obligations.ResetIsIdleWithTheDefaults : Prop :=
  State.reset.pending = false ∧ State.reset.answered = false ∧ State.reset.cfg.checkInboundCrc = false ∧
  State.reset.cfg.pumpAllOffPolicy = .unsupported ∧ State.reset.cfg.pumpCoilDecode = .coilWord

/-- 20_memory.md R48, 60_exceptions.md R218: from any idle state a finite sequence of admissible requests is served to
its end, its observation is one response per request, in order, and each response is the one that request alone gets
from the core just reset. -/
def Obligations.RunResponsesEachFollowTheirOwnRequest : Prop :=
  ∀ (s : State) (rs : List Req), s.pending = false → (∀ r ∈ rs, r.dlen.toNat ≤ s.cfg.maxData) →
    ∃ (t : State) (ps : List Rsp), serve rs s = .next (t, ps) ∧ t.cfg = s.cfg ∧ t.pending = false ∧
      ps.length = rs.length ∧
      ∀ (k : Nat) (hk : k < rs.length) (hp : k < ps.length),
        ∃ t', serveOne rs[k] (hardReset s) = .next (t', ps[k])

/-! ### Checksum Engine -/

/-- 40_checksum.md R103: CRC16 completes in every state, for every status flag and every device code, the reserved one
included, with the checksum of `REQ.data` and every other output 0. -/
def Obligations.Crc16CompletesWithTheChecksum : Prop :=
  ∀ (st : Bool) (dev : DevCode) (s : State),
    exec (.crc16 st dev) s = .next { s with
      rsp := { res := 0, crc := crc16 s.req.data, word := 0, mode := 0, ncoil := 0, coils := [], dlen := 0, data := [] }
      answered := true, pending := false }

/-- 40_checksum.md R100: the accumulator starts at 0xFFFF, and each further byte is XORed into it and followed by 8
rounds of a right shift, with 0xA001 XORed in when the low bit was 1. -/
def Obligations.ChecksumFollowsTheBitwiseAlgorithm : Prop :=
  crc16 [] = 0xFFFF#16 ∧
  ∀ (f : Frame) (b : Byte), ∃ acc : Nat → Half,
    acc 0 = crc16 f ^^^ b.setWidth 16 ∧
    (∀ k, k < 8 → acc (k + 1) =
      if (acc k).getLsbD 0 = true then (acc k >>> 1) ^^^ 0xA001#16 else acc k >>> 1) ∧
    crc16 (f ++ [b]) = acc 8

/-- 40_checksum.md R101: `CrcAppend(f)` is f followed by its checksum, low byte first, and every frame the core builds
ends this way. The valve poll frame carries 0xC925 as `25 C9` (the worked check of 20_memory.md R42). -/
def Obligations.ChecksumIsAppendedLowByteFirst : Prop :=
  (∀ f : Frame, crcAppend f = f ++ [(crc16 f).extractLsb' 0 8, (crc16 f).extractLsb' 8 8]) ∧
  (∀ (cfg : Config) (c : CoilSeq) (dev : Device) (f : Frame), buildFrame cfg c dev = .ok f → ∃ g, f = crcAppend g) ∧
  crc16 [0x01, 0x03, 0x00, 0x0A, 0x00, 0x03] = 0xC925#16 ∧
  crcAppend [0x01, 0x03, 0x00, 0x0A, 0x00, 0x03] = [0x01, 0x03, 0x00, 0x0A, 0x00, 0x03, 0x25, 0xC9]

/-- 40_checksum.md R102: a sequence is valid exactly when it has at least 2 bytes and the checksum of all but its last
two is the value of those two, low byte first. -/
def Obligations.ValidityComparesTheLastTwoBytes : Prop :=
  ∀ f : Frame, crcValid f = true ↔
    2 ≤ f.length ∧ crc16 (f.take (f.length - 2)) =
      (f.getD (f.length - 2) 0).setWidth 16 ||| ((f.getD (f.length - 1) 0).setWidth 16 <<< 8)

/-- 30_encoding.md R70: the valid frames are exactly the byte sequences followed by their own checksum. -/
def Obligations.ValidFramesAreChecksummedSequences : Prop :=
  ∀ f : Frame, crcValid f = true ↔ ∃ g : Frame, f = crcAppend g

/-- 95_test_vectors.md section 2.1: the checksum over a sequence with its own checksum appended is 0. -/
def Obligations.ChecksumOverAChecksummedFrameIsZero : Prop :=
  ∀ f : Frame, crc16 (crcAppend f) = 0

/-! ### Coil Bit Mapper -/

/-- 41_coil_mapper.md R110: `Rev` takes position i of a 27-element sequence from position 26 - i in the window 9 to 17
and from i elsewhere, and only Valve A has it applied. -/
def Obligations.ReorderReversesTheWindow : Prop :=
  (∀ (s : CoilSeq) (i : Nat), s.length = 27 → i < 27 →
    (rev s)[i]? = if 9 ≤ i ∧ i ≤ 17 then s[26 - i]? else s[i]?) ∧
  (∀ (dev : Device) (s : CoilSeq), reordered dev s = if dev = .va then rev s else s)

/-- 41_coil_mapper.md R111: `Rev` is its own inverse on 27-element sequences. -/
def Obligations.ReorderIsItsOwnInverse : Prop :=
  ∀ s : CoilSeq, s.length = 27 → rev (rev s) = s

/-- 41_coil_mapper.md R112 (the pump's two coils and the unread bits are the spec's own decisions D12, D27): the
decoded sequence has the device's coil count, and position i is bit i of the word, or bit 26 - i in Valve A's window;
no other bit of the word is read. -/
def Obligations.MapDecodeTakesBitsOfTheWord : Prop :=
  ∀ w : Word,
    (mapDecode w .va).length = 27 ∧ (mapDecode w .vb).length = 27 ∧
    mapDecode w .pump = [w.getLsbD 0, w.getLsbD 1] ∧
    ∀ i, i < 27 → (mapDecode w .vb)[i]? = some (w.getLsbD i) ∧
      (mapDecode w .va)[i]? = some (if 9 ≤ i ∧ i ≤ 17 then w.getLsbD (26 - i) else w.getLsbD i)

/-- 41_coil_mapper.md R114 (the zero bits are the spec's own decision D27): a sequence whose length is not the
device's coil count is INVALID_SHAPE; any other is packed with coil i in bit i (bit 26 - i in Valve A's window) and 0
in the bits from the coil count up. -/
def Obligations.MapEncodePacksTheCoils : Prop :=
  ∀ (c : CoilSeq) (dev : Device),
    (c.length ≠ ncoilOf dev → mapEncode c dev = .error .invalidShape) ∧
    (c.length = ncoilOf dev → ∃ w : Word, mapEncode c dev = .ok w ∧
      ∀ i, w.getLsbD i = true ↔
        i < ncoilOf dev ∧ c.getD (if dev = .va ∧ 9 ≤ i ∧ i ≤ 17 then 26 - i else i) false = true)

/-- 41_coil_mapper.md R116: decode of encode is the coil sequence, and encode of decode is the word without the bits
from the coil count up. -/
def Obligations.MapDecodeAndEncodeRoundTrip : Prop :=
  (∀ (dev : Device) (c : CoilSeq), c.length = ncoilOf dev →
    ∃ w, mapEncode c dev = .ok w ∧ mapDecode w dev = c) ∧
  (∀ (dev : Device) (w : Word), mapEncode (mapDecode w dev) dev = .ok (w &&& BitVec.ofNat 32 (2 ^ ncoilOf dev - 1)))

/-- 41_coil_mapper.md R113: MAP_DECODE completes in every state for each device, with the decoded sequence and its
count, and every other output 0. -/
def Obligations.MapDecodeCompletesWithTheCoils : Prop :=
  ∀ (st : Bool) (d : Device) (s : State),
    exec (.mapDecode st d.devCode) s = .next { s with
      rsp := { res := 0, crc := 0, word := 0, mode := 0, ncoil := BitVec.ofNat 16 (ncoilOf d),
               coils := mapDecode s.req.word d, dlen := 0, data := [] }
      answered := true, pending := false }

/-- 41_coil_mapper.md R115: MAP_ENCODE of a sequence of the device's coil count completes with the packed word and
every other output 0. -/
def Obligations.MapEncodeCompletesWithTheWord : Prop :=
  ∀ (st : Bool) (d : Device) (s : State), s.req.coils.length = ncoilOf d →
    ∃ w, mapEncode s.req.coils d = .ok w ∧
      exec (.mapEncode st d.devCode) s = .next { s with
        rsp := { res := 0, crc := 0, word := w, mode := 0, ncoil := 0, coils := [], dlen := 0, data := [] }
        answered := true, pending := false }

/-- 43_command_builder.md R161 for COMMAND, and R115, R141 for MAP_ENCODE and BUILD: a sequence whose length is not
the device's coil count is INVALID_SHAPE and no frame is produced (every other output is 0), whatever the coils, the
status and the policy are. -/
def Obligations.WrongCoilCountIsInvalidShape : Prop :=
  ∀ (st : Bool) (d : Device) (s : State), s.req.coils.length ≠ ncoilOf d →
    ∀ i ∈ [Instr.mapEncode st d.devCode, Instr.build st d.devCode, Instr.command st d.devCode],
      exec i s = .next { s with
        rsp := { res := 2, crc := 0, word := 0, mode := 0, ncoil := 0, coils := [], dlen := 0, data := [] }
        answered := true, pending := false }

/-- 30_encoding.md R65 on the operation itself: the reserved device code in an operation that reads the device is
ILLEGAL, before any other check (60_exceptions.md R202). -/
def Obligations.ReservedDeviceIsIllegal : Prop :=
  ∀ (st : Bool) (s : State),
    ∀ i ∈ [Instr.mapDecode st .reserved, Instr.mapEncode st .reserved, Instr.parse st .reserved,
      Instr.build st .reserved, Instr.pollReq st .reserved, Instr.command st .reserved],
      exec i s = .next { s with
        rsp := { res := 4, crc := 0, word := 0, mode := 0, ncoil := 0, coils := [], dlen := 0, data := [] }
        answered := true, pending := false }

/-! ### Frame Codec -/

/-- 20_memory.md R43: byte j of `LE32(w)` holds bits 8j .. 8j+7 of w, and `RDLE32` reads them back from any index. -/
def Obligations.CoilWordIsLittleEndian : Prop :=
  (∀ (w : Word) (j b : Nat), j < 4 → b < 8 → (byteAt (le32 w) j).getLsbD b = w.getLsbD (8 * j + b)) ∧
  (∀ (f : Frame) (k j b : Nat), j < 4 → b < 8 → (rdLE32 f k).getLsbD (8 * j + b) = (byteAt f (k + j)).getLsbD b)

/-- 10_state.md R27 (`coil_off` and `write_addr` by the spec's own decisions D11, D12, D15): the profile table, and
what its two mode rules say. -/
def Obligations.ProfileTableIsTheSpecs : Prop :=
  ∀ cfg : Config,
    profile cfg .va = { respLen := 11, respFc := 3, ncoil := 27, reorder := true, modeRule := .valve, coilOff := 3,
                        writeAddr := cfg.valveAWriteAddr, hasCanned := false } ∧
    profile cfg .vb = { respLen := 11, respFc := 3, ncoil := 27, reorder := false, modeRule := .valve, coilOff := 3,
                        writeAddr := cfg.valveBWriteAddr, hasCanned := false } ∧
    profile cfg .pump = { respLen := 13, respFc := 4, ncoil := 2, reorder := false, modeRule := .pump, coilOff := 3,
                          writeAddr := 0x0000, hasCanned := true } ∧
    ∀ d : Frame, readMode .valve d = (if byteAt d 7 = 4#8 then .remoteMode else .localMode) ∧
      readMode .pump d = (if byteAt d 10 ≠ 0#8 then .localMode else .remoteMode)

/-- 42_frame_codec.md R131, R132: a buffer whose length is not the profile's (11, 11, 13), or whose byte 1 is not the
profile's function code (3, 3, 4), is Invalid, whether its checksum is valid or not and whether it is checked or not.
-/
def Obligations.ParseRejectsWrongLengthOrFunctionCode : Prop :=
  ∀ (cfg : Config) (d : Frame),
    (d.length ≠ 11 → parseFrame cfg d .va = none ∧ parseFrame cfg d .vb = none) ∧
    (d.length ≠ 13 → parseFrame cfg d .pump = none) ∧
    (d[1]? ≠ some 3#8 → parseFrame cfg d .va = none ∧ parseFrame cfg d .vb = none) ∧
    (d[1]? ≠ some 4#8 → parseFrame cfg d .pump = none)

/-- 42_frame_codec.md R130, R136 and R133 (the parameter CHECK_INBOUND_CRC is the spec's own decision D10): PARSE
accepts a buffer exactly when its length and its byte 1 are the profile's and, only where CHECK_INBOUND_CRC is set,
its checksum is valid. -/
def Obligations.ParseAcceptsExactlyTheProfilesFrames : Prop :=
  ∀ (cfg : Config) (d : Frame) (dev : Device),
    (parseFrame cfg d dev).isSome = true ↔
      d.length = (if dev = .pump then 13 else 11) ∧ d[1]? = some (if dev = .pump then 4#8 else 3#8) ∧
      (cfg.checkInboundCrc = true → crcValid d = true)

/-- 42_frame_codec.md R135: PARSE of a buffer that fails a check of R131 to R133 is INVALID_FRAME with every other
output 0. -/
def Obligations.RejectedBufferIsInvalidFrame : Prop :=
  ∀ (st : Bool) (d : Device) (s : State),
    (s.req.data.length ≠ (if d = .pump then 13 else 11) ∨ byteAt s.req.data 1 ≠ (if d = .pump then 4#8 else 3#8) ∨
      (s.cfg.checkInboundCrc = true ∧ crcValid s.req.data = false)) →
    exec (.parse st d.devCode) s = .next { s with
      rsp := { res := 1, crc := 0, word := 0, mode := 0, ncoil := 0, coils := [], dlen := 0, data := [] }
      answered := true, pending := false }

/-- 42_frame_codec.md R134 for the valves (the offset is the spec's own decision D11): an accepted response completes
with the coils of bytes 3 to 6 through the mapper, and mode remote exactly when byte 7 is 4. -/
def Obligations.ValveResponseIsReadAsTheSpecSays : Prop :=
  ∀ (st : Bool) (d : Device) (s : State), d ≠ .pump → s.req.data.length = 11 → byteAt s.req.data 1 = 3#8 →
    (s.cfg.checkInboundCrc = true → crcValid s.req.data = true) →
    exec (.parse st d.devCode) s = .next { s with
      rsp := { res := 0, crc := 0, word := 0, mode := if byteAt s.req.data 7 = 4#8 then 1 else 0, ncoil := 27,
               coils := mapDecode (rdLE32 s.req.data 3) d, dlen := 0, data := [] }
      answered := true, pending := false }

/-- 42_frame_codec.md R134 for the pump, at the spec's default of PUMP_COIL_DECODE (its own decision D12): an accepted
response completes with bits 0 and 1 of byte 3 as its coils, and mode local exactly when byte 10 is not 0. -/
def Obligations.PumpResponseIsReadAsTheSpecSays : Prop :=
  ∀ (st : Bool) (s : State), s.cfg.pumpCoilDecode = .coilWord → s.req.data.length = 13 → byteAt s.req.data 1 = 4#8 →
    (s.cfg.checkInboundCrc = true → crcValid s.req.data = true) →
    exec (.parse st .pump) s = .next { s with
      rsp := { res := 0, crc := 0, word := 0, mode := if byteAt s.req.data 10 ≠ 0#8 then 0 else 1, ncoil := 2,
               coils := [(byteAt s.req.data 3).getLsbD 0, (byteAt s.req.data 3).getLsbD 1], dlen := 0, data := [] }
      answered := true, pending := false }

/-- The model's reading of the parameter PUMP_COIL_DECODE away from its default (92_eei_decisions.md D12; DESIGN
CHOICE, notes/assumptions/11.md): the pump's coils are the bits at the two configured positions. -/
def Obligations.PumpCoilsAreReadAtTheConfiguredPositions : Prop :=
  ∀ (st : Bool) (s : State) (p0 p1 : CoilPos), s.cfg.pumpCoilDecode = .positions p0 p1 → s.req.data.length = 13 →
    byteAt s.req.data 1 = 4#8 → (s.cfg.checkInboundCrc = true → crcValid s.req.data = true) →
    exec (.parse st .pump) s = .next { s with
      rsp := { res := 0, crc := 0, word := 0, mode := if byteAt s.req.data 10 ≠ 0#8 then 0 else 1, ncoil := 2,
               coils := [(byteAt s.req.data p0.byte.val).getLsbD p0.bit.val,
                         (byteAt s.req.data p1.byte.val).getLsbD p1.bit.val], dlen := 0, data := [] }
      answered := true, pending := false }

/-- 30_encoding.md R72, R73: with no inbound checksum check the address byte, byte 2, a valve response's byte 8, a
pump response's bytes 4 to 9 (at the default PUMP_COIL_DECODE) and the checksum bytes have no part in the result. -/
def Obligations.ParseDoesNotReadTheOtherBytes : Prop :=
  ∀ (cfg : Config) (f g : Frame) (dev : Device), cfg.checkInboundCrc = false → cfg.pumpCoilDecode = .coilWord →
    f.length = g.length →
    (∀ i ∈ (if dev = .pump then [1, 3, 10] else [1, 3, 4, 5, 6, 7]), byteAt f i = byteAt g i) →
    parseFrame cfg f dev = parseFrame cfg g dev

/-- 42_frame_codec.md R140 (the spec's own decisions D14, D15, D16): the frame BUILD makes, byte by byte: address 01,
function 10, the device's start register high byte first, quantity 0002, byte count 04, the payload (a valve's packed
word little-endian, or one big-endian register per pump coil) and the checksum; or INVALID_SHAPE. -/
def Obligations.BuiltFrameIsTheWriteFrame : Prop :=
  ∀ (cfg : Config) (c : CoilSeq) (dev : Device),
    (c.length ≠ ncoilOf dev → buildFrame cfg c dev = .error .invalidShape) ∧
    (dev ≠ .pump → c.length = 27 → ∃ w, mapEncode c dev = .ok w ∧
      ∃ a : Half, a = (if dev = .va then cfg.valveAWriteAddr else cfg.valveBWriteAddr) ∧
      buildFrame cfg c dev = .ok (crcAppend [0x01, 0x10, a.extractLsb' 8 8, a.extractLsb' 0 8, 0x00, 0x02, 0x04,
        w.extractLsb' 0 8, w.extractLsb' 8 8, w.extractLsb' 16 8, w.extractLsb' 24 8])) ∧
    (∀ c0 c1 : Bool, buildFrame cfg [c0, c1] .pump = .ok (crcAppend [0x01, 0x10, 0x00, 0x00, 0x00, 0x02, 0x04,
        0x00, if c0 then 0x01 else 0x00, 0x00, if c1 then 0x01 else 0x00]))

/-- 42_frame_codec.md R142: every frame BuildFrame returns is 13 bytes long and carries a valid checksum. -/
def Obligations.BuiltFramesAreValid : Prop :=
  ∀ (cfg : Config) (c : CoilSeq) (dev : Device) (f : Frame), buildFrame cfg c dev = .ok f →
    f.length = 13 ∧ crcValid f = true

/-- 42_frame_codec.md R141: BUILD of a sequence of the device's coil count completes with the built frame, 13 bytes,
and every other output 0. -/
def Obligations.BuildCompletesWithTheFrame : Prop :=
  ∀ (st : Bool) (d : Device) (s : State), s.req.coils.length = ncoilOf d →
    ∃ f, buildFrame s.cfg s.req.coils d = .ok f ∧
      exec (.build st d.devCode) s = .next { s with
        rsp := { res := 0, crc := 0, word := 0, mode := 0, ncoil := 0, coils := [], dlen := 13, data := f }
        answered := true, pending := false }

/-- 42_frame_codec.md R145, 10_state.md R28: POLL_REQ completes in every state with the device's constant frame, the
spec's literal for a valve and PUMP_POLL_FRAME as stored for the pump. -/
def Obligations.PollRequestCompletesWithTheConstantFrame : Prop :=
  ∀ (st : Bool) (d : Device) (s : State),
    ∃ f : Frame, f = (if d = .pump then s.cfg.pumpPollFrame else [0x01, 0x03, 0x00, 0x0A, 0x00, 0x03, 0x25, 0xC9]) ∧
      exec (.pollReq st d.devCode) s = .next { s with
        rsp := { res := 0, crc := 0, word := 0, mode := 0, ncoil := 0, coils := [],
                 dlen := BitVec.ofNat 16 f.length, data := f }
        answered := true, pending := false }

/-- 95_test_vectors.md P2: a valve reading mirrored back as a command carries the response's bytes 3 to 6 again, but
for the bits of byte 6 above coil 26. -/
def Obligations.MirroredValveReadingKeepsItsPayload : Prop :=
  ∀ (cfg : Config) (d : Frame) (dev : Device) (r : Reading), dev ≠ .pump → parseFrame cfg d dev = some r →
    ∃ f, buildFrame cfg r.coils dev = .ok f ∧
      slice f 7 11 = [byteAt d 3, byteAt d 4, byteAt d 5, byteAt d 6 &&& 0x07#8]

/-! ### Command Builder -/

/-- 43_command_builder.md R165: COMMAND of a valve with the right number of coils completes, for either status, with
the frame BUILD returns for the same coils and device. -/
def Obligations.ValveCommandIsTheGenericFrame : Prop :=
  ∀ (st st' : Bool) (d : Device) (s : State), d ≠ .pump → s.req.coils.length = 27 →
    ∃ f, buildFrame s.cfg s.req.coils d = .ok f ∧
      exec (.command st d.devCode) s = .next { s with
        rsp := { res := 0, crc := 0, word := 0, mode := 0, ncoil := 0, coils := [], dlen := 13, data := f }
        answered := true, pending := false } ∧
      exec (.command st d.devCode) s = exec (.build st' d.devCode) s

/-- 43_command_builder.md R166: the pump's selection table, every coil pattern, status and policy. -/
def Obligations.PumpCommandFollowsTheSelectionTable : Prop :=
  ∀ (cfg : Config) (st : Bool),
    commandFrame cfg [false, false] st .pump =
      (if cfg.pumpAllOffPolicy = .generic then
        .ok [0x01, 0x10, 0x00, 0x00, 0x00, 0x02, 0x04, 0x00, 0x00, 0x00, 0x00, 0xF3, 0xAF]
      else .error .unsupported) ∧
    commandFrame cfg [true, false] st .pump =
      .ok (if st then cfg.cannedPump10S1 else [0x01, 0x06, 0x00, 0x00, 0x00, 0x00, 0x89, 0xCA]) ∧
    commandFrame cfg [false, true] st .pump = .ok (if st then cfg.cannedPump01S1 else cfg.cannedPump01S0) ∧
    commandFrame cfg [true, true] st .pump =
      .ok [0x01, 0x10, 0x00, 0x00, 0x00, 0x02, 0x04, 0x00, 0x01, 0x00, 0x01, 0x63, 0xAF]

/-- 43_command_builder.md R163: COMMAND of the pump with two coils completes with the selected frame and its length,
or answers UNSUPPORTED for `[0, 0]` under that policy; every other output is 0. -/
def Obligations.PumpCommandAnswersTheSelectedFrame : Prop :=
  ∀ (st : Bool) (s : State), s.req.coils.length = 2 →
    ((s.req.coils ≠ [false, false] ∨ s.cfg.pumpAllOffPolicy = .generic) →
      ∃ f, commandFrame s.cfg s.req.coils st .pump = .ok f ∧
        exec (.command st .pump) s = .next { s with
          rsp := { res := 0, crc := 0, word := 0, mode := 0, ncoil := 0, coils := [],
                   dlen := BitVec.ofNat 16 f.length, data := f }
          answered := true, pending := false }) ∧
    (s.req.coils = [false, false] → s.cfg.pumpAllOffPolicy = .unsupported →
      exec (.command st .pump) s = .next { s with
        rsp := { res := 3, crc := 0, word := 0, mode := 0, ncoil := 0, coils := [], dlen := 0, data := [] }
        answered := true, pending := false })

/-- 43_command_builder.md R164 (the spec's own decision D20): the only request that is UNSUPPORTED is the pump's `[0,
0]`, and only under the policy UNSUPPORTED; a valve's never is; under GENERIC `[0, 0]` builds the frame the rule
writes out. -/
def Obligations.OnlyThePumpsAllOffIsUnsupported : Prop :=
  (∀ (cfg : Config) (c : CoilSeq) (st : Bool) (dev : Device),
    commandFrame cfg c st dev = .error .unsupported ↔
      dev = .pump ∧ c = [false, false] ∧ cfg.pumpAllOffPolicy = .unsupported) ∧
  (∀ (cfg : Config) (st : Bool), cfg.pumpAllOffPolicy = .generic →
    commandFrame cfg [false, false] st .pump =
      .ok [0x01, 0x10, 0x00, 0x00, 0x00, 0x02, 0x04, 0x00, 0x00, 0x00, 0x00, 0xF3, 0xAF])
end

