-- ==== Sys2Proof/Laws/Operands.lean ====
section
/-! SUPPORT. Lengths and values of the byte orders. -/

namespace Sys2Proof.Machine

open Sys2Proof

@[simp] theorem le16_length (v : Half) : (le16 v).length = 2 := rfl
@[simp] theorem be16_length (v : Half) : (be16 v).length = 2 := rfl
@[simp] theorem le32_length (w : Word) : (le32 w).length = 4 := rfl

/-- The two bytes of `LE16(v)`, read back low byte first, are v. -/
theorem half_of_le16 (v : Half) :
    (v.extractLsb' 0 8).setWidth 16 ||| ((v.extractLsb' 8 8).setWidth 16 <<< 8) = v := by
  ext i hi
  simp only [BitVec.getElem_or, BitVec.getElem_setWidth, BitVec.getLsbD_extractLsb', BitVec.getElem_shiftLeft]
  by_cases h : i < 8
  · simp [h, BitVec.getLsbD_eq_getElem hi]
  · have h2 : i - 8 < 8 := by omega
    have h3 : 8 + (i - 8) = i := by omega
    simp [h, h2, h3, BitVec.getLsbD_eq_getElem hi]

/-- `f ++ LE16(v)`, read at the end of f, is v (20_memory.md R42). -/
theorem rdLE16_append_le16 (f : Frame) (v : Half) : rdLE16 (f ++ le16 v) f.length = v := by
  have h0 : byteAt (f ++ le16 v) f.length = v.extractLsb' 0 8 := by simp [byteAt, le16, List.getD]
  have h1 : byteAt (f ++ le16 v) (f.length + 1) = v.extractLsb' 8 8 := by simp [byteAt, le16, List.getD]
  rw [rdLE16, h0, h1, half_of_le16]

end Sys2Proof.Machine
end

