-- ==== Sys2Proof/Laws/Checksum.lean ====
section
/-! SUPPORT. The checksum function on the forms of a frame. -/

namespace Sys2Proof.Machine

open Sys2Proof

/-- CR1: the empty sequence gives CRC_INIT (40_checksum.md R103). -/
@[simp] theorem crc16_nil : crc16 [] = 0xFFFF := rfl

/-- The checksum of a longer frame goes on from the checksum of its first part. -/
theorem crc16_append (f g : Frame) : crc16 (f ++ g) = g.foldl crcByte (crc16 f) := by
  simp [crc16, List.foldl_append]

@[simp] theorem crcAppend_length (f : Frame) : (crcAppend f).length = f.length + 2 := by
  simp [crcAppend]

end Sys2Proof.Machine
end

