-- ==== Sys2Proof/Laws/CoilMapper.lean ====
section
/-! SUPPORT. The bit-level laws of the Coil Bit Mapper. -/

namespace Sys2Proof.Machine

open Sys2Proof

/-- The window of the reorder table stays inside 27 positions. -/
theorem perm_lt {i : Nat} (h : i < 27) : perm i < 27 := by unfold perm; split <;> omega

/-- ROM.perm is its own inverse (41_coil_mapper.md R111). -/
@[simp] theorem perm_perm (i : Nat) : perm (perm i) = i := by
  unfold perm; split_ifs <;> omega

@[simp] theorem rev_length (s : CoilSeq) : (rev s).length = s.length := by simp [rev]

/-- Position i of `Rev(s)` is position ROM.perm[i] of s (R110). -/
theorem rev_getElem (s : CoilSeq) (i : Nat) (h : i < (rev s).length) : (rev s)[i] = coilAt s (perm i) := by
  simp [rev]

@[simp] theorem reordered_length (dev : Device) (s : CoilSeq) : (reordered dev s).length = s.length := by
  unfold reordered; split <;> simp

@[simp] theorem unpackBits_length (n : Nat) (w : Word) : (unpackBits n w).length = n := by simp [unpackBits]

theorem unpackBits_getElem (n : Nat) (w : Word) (i : Nat) (h : i < (unpackBits n w).length) :
    (unpackBits n w)[i] = w.getLsbD i := by
  simp [unpackBits]

@[simp] theorem mapDecode_length (w : Word) (dev : Device) : (mapDecode w dev).length = ncoilOf dev := by
  simp [mapDecode]

/-- Bit i of a packed word is coil i, and 0 above the sequence (R114). -/
theorem packBits_getLsbD (c : CoilSeq) (i : Nat) : (packBits c).getLsbD i = (decide (i < 32) && coilAt c i) := by
  induction c generalizing i with
  | nil => simp [packBits, coilAt]
  | cons b c ih =>
    cases i with
    | zero => simp [packBits, coilAt]
    | succ i =>
      have := ih i
      simp only [packBits, BitVec.getLsbD_or, BitVec.getLsbD_setWidth, BitVec.getLsbD_ofBool,
        BitVec.getLsbD_shiftLeft, coilAt, List.getD_cons_succ]
      by_cases h : i + 1 < 32
      · have h' : i < 32 := by omega
        simpa [h, h', coilAt] using this
      · simp [h]

end Sys2Proof.Machine
end

