-- ==== Sys2Proof/Laws/State.lean ====
section
/-! SUPPORT. One lemma per field per update of the state and the response register, so that no later proof unfolds a
record update. -/

namespace Sys2Proof.Machine

open Sys2Proof

variable (s : State) (r : Rsp)

@[simp] theorem State.respond_cfg : (s.respond r).cfg = s.cfg := rfl
@[simp] theorem State.respond_req : (s.respond r).req = s.req := rfl
@[simp] theorem State.respond_rsp : (s.respond r).rsp = r := rfl
@[simp] theorem State.respond_pending : (s.respond r).pending = false := rfl
@[simp] theorem State.respond_answered : (s.respond r).answered = true := rfl

/-- Answering twice leaves the second response only. -/
@[simp] theorem State.respond_respond (r' : Rsp) : (s.respond r).respond r' = s.respond r' := rfl

@[simp] theorem hardReset_cfg : (hardReset s).cfg = s.cfg := rfl
@[simp] theorem hardReset_req : (hardReset s).req = Req.zero := rfl
@[simp] theorem hardReset_rsp : (hardReset s).rsp = Rsp.zero := rfl
@[simp] theorem hardReset_pending : (hardReset s).pending = false := rfl
@[simp] theorem hardReset_answered : (hardReset s).answered = false := rfl

@[simp] theorem reset_cfg : State.reset.cfg = Config.instantiated := rfl
@[simp] theorem reset_req : State.reset.req = Req.zero := rfl
@[simp] theorem reset_rsp : State.reset.rsp = Rsp.zero := rfl
@[simp] theorem reset_pending : State.reset.pending = false := rfl
@[simp] theorem reset_answered : State.reset.answered = false := rfl

/-- Reset of the reset state is the reset state. -/
theorem hardReset_reset : hardReset State.reset = State.reset := rfl

@[simp] theorem Rsp.ofError_res (e : ErrorResult) : (Rsp.ofError e).res = e.code := rfl
@[simp] theorem Rsp.ofCrc_res (v : Half) : (Rsp.ofCrc v).res = 0 := rfl
@[simp] theorem Rsp.ofWord_res (w : Word) : (Rsp.ofWord w).res = 0 := rfl
@[simp] theorem Rsp.ofCoils_res (c : CoilSeq) : (Rsp.ofCoils c).res = 0 := rfl
@[simp] theorem Rsp.ofReading_res (m : Mode) (c : CoilSeq) : (Rsp.ofReading m c).res = 0 := rfl
@[simp] theorem Rsp.ofFrame_res (f : Frame) : (Rsp.ofFrame f).res = 0 := rfl
@[simp] theorem Rsp.ofCrc_crc (v : Half) : (Rsp.ofCrc v).crc = v := rfl
@[simp] theorem Rsp.ofWord_word (w : Word) : (Rsp.ofWord w).word = w := rfl
@[simp] theorem Rsp.ofCoils_coils (c : CoilSeq) : (Rsp.ofCoils c).coils = c := rfl
@[simp] theorem Rsp.ofReading_coils (m : Mode) (c : CoilSeq) : (Rsp.ofReading m c).coils = c := rfl
@[simp] theorem Rsp.ofReading_mode (m : Mode) (c : CoilSeq) : (Rsp.ofReading m c).mode = m.bit := rfl
@[simp] theorem Rsp.ofFrame_data (f : Frame) : (Rsp.ofFrame f).data = f := rfl
@[simp] theorem Rsp.ofFrame_dlen (f : Frame) : (Rsp.ofFrame f).dlen = BitVec.ofNat 16 f.length := rfl

/-- No error has the result code OK. -/
@[simp] theorem ErrorResult.code_ne_zero (e : ErrorResult) : e.code ≠ 0 := by cases e <;> decide

end Sys2Proof.Machine
end

