-- ==== Sys2Proof/Laws/Ops.lean ====
section
/-! SUPPORT. What each shared operation can do, said once. -/

namespace Sys2Proof.Machine

open Sys2Proof

/-- Reporting an error answers the request and never stops. -/
theorem respondError_eq (e : ErrorResult) (s : State) : respondError e s = .next (s.respond (Rsp.ofError e)) := rfl

theorem admitted_iff (s : State) : admitted s = true ↔ s.req.dlen.toNat ≤ s.cfg.maxData := by
  simp [admitted]

/-- Admission looks at the request and the configuration only. -/
@[simp] theorem admitted_respond (s : State) (r : Rsp) : admitted (s.respond r) = admitted s := rfl

/-- A submission that is accepted leaves the configuration and the response as they were. -/
theorem submit_cases {r : Req} {s t : State} (h : submit r s = .ok t) :
    s.pending = false ∧ t = { s with req := r, pending := true } := by
  unfold submit at h
  split at h
  · cases h
  · next hp => exact ⟨by simpa using hp, by cases h; rfl⟩

theorem submit_idle {s : State} (r : Req) (h : s.pending = false) :
    submit r s = .ok { s with req := r, pending := true } := by
  simp [submit, h]

theorem readRsp_answered {s : State} (h : s.answered = true) : readRsp s = .ok s.rsp := by
  simp [readRsp, h]

theorem readRsp_unanswered {s : State} (h : s.answered = false) : readRsp s = .error .rspReadBeforeFirstResponse := by
  simp [readRsp, h]

end Sys2Proof.Machine
end

