-- ==== Sys2Proof/Laws/FrameCodec.lean ====
section
/-! SUPPORT. What the frame functions can answer, said once. -/

namespace Sys2Proof.Machine

open Sys2Proof

@[simp] theorem writeHeader_length (cfg : Config) (dev : Device) : (writeHeader cfg dev).length = 7 := rfl

@[simp] theorem profile_ncoil (cfg : Config) (dev : Device) : (profile cfg dev).ncoil = ncoilOf dev := by
  cases dev <;> rfl

/-- The only error of the mapper is INVALID_SHAPE. -/
theorem mapEncode_cases (c : CoilSeq) (dev : Device) :
    (c.length ≠ ncoilOf dev ∧ mapEncode c dev = .error .invalidShape) ∨
    (c.length = ncoilOf dev ∧ mapEncode c dev = .ok (packBits (reordered dev c))) := by
  unfold mapEncode
  split
  · next h => exact .inl ⟨h, rfl⟩
  · next h => exact .inr ⟨by omega, rfl⟩

/-- The payload of a sequence of the right length is 4 bytes. -/
theorem writePayload_ok {c : CoilSeq} {dev : Device} (h : c.length = ncoilOf dev) :
    ∃ p, writePayload c dev = .ok p ∧ p.length = 4 := by
  cases dev with
  | va => exact ⟨_, by simp [writePayload, mapEncode, h, Except.map]; rfl, rfl⟩
  | vb => exact ⟨_, by simp [writePayload, mapEncode, h, Except.map]; rfl, rfl⟩
  | pump => exact ⟨_, rfl, rfl⟩

/-- BuildFrame answers INVALID_SHAPE, or the checksummed 11 bytes of header and payload. -/
theorem buildFrame_cases (cfg : Config) (c : CoilSeq) (dev : Device) :
    (c.length ≠ ncoilOf dev ∧ buildFrame cfg c dev = .error .invalidShape) ∨
    (c.length = ncoilOf dev ∧ ∃ p, writePayload c dev = .ok p ∧ p.length = 4 ∧
      buildFrame cfg c dev = .ok (crcAppend (writeHeader cfg dev ++ p))) := by
  by_cases h : c.length = ncoilOf dev
  · obtain ⟨p, hp, hl⟩ := writePayload_ok h
    exact .inr ⟨h, p, hp, hl, by simp [buildFrame, h, hp, Except.map]⟩
  · exact .inl ⟨h, by simp [buildFrame, h]⟩

/-- ParseFrame answers Invalid, or the reading of the whole buffer. -/
theorem parseFrame_cases (cfg : Config) (d : Frame) (dev : Device) :
    parseFrame cfg d dev = none ∨
    parseFrame cfg d dev = some ⟨readMode (profile cfg dev).modeRule d, readCoils cfg d dev⟩ := by
  unfold parseFrame
  split
  · exact .inl rfl
  · split
    · exact .inl rfl
    · split
      · exact .inl rfl
      · exact .inr rfl

/-- A frame or an error is answered either way. -/
theorem respondFrame_next (r : Except ErrorResult Frame) (s : State) :
    ∃ p, respondFrame r s = .next (s.respond p) ∧
      ((∃ e, r = .error e ∧ p = Rsp.ofError e) ∨ (∃ f, r = .ok f ∧ p = Rsp.ofFrame f)) := by
  cases r with
  | error e => exact ⟨_, rfl, .inl ⟨e, rfl, rfl⟩⟩
  | ok f => exact ⟨_, rfl, .inr ⟨f, rfl, rfl⟩⟩

/-- COMMAND answers an error, a stored frame of the configuration or the table, or the generic frame. -/
theorem commandFrame_cases (cfg : Config) (c : CoilSeq) (st : Bool) (dev : Device) :
    commandFrame cfg c st dev = .error .invalidShape ∨ commandFrame cfg c st dev = .error .unsupported ∨
    (∃ f, cannedLookup cfg c st dev = some f ∧ commandFrame cfg c st dev = .ok f) ∨
    commandFrame cfg c st dev = buildFrame cfg c dev := by
  unfold commandFrame
  split
  · exact .inl rfl
  · split
    · exact .inr (.inr (.inr rfl))
    · split
      · next f hf => exact .inr (.inr (.inl ⟨f, hf, rfl⟩))
      · split
        · exact .inr (.inl rfl)
        · exact .inr (.inr (.inr rfl))

/-- The entries of the canned table: the spec's frame or one of the three OPEN ones (10_state.md R29). -/
theorem cannedLookup_cases {cfg : Config} {c : CoilSeq} {st : Bool} {dev : Device} {f : Frame}
    (h : cannedLookup cfg c st dev = some f) :
    dev = .pump ∧ (f = cannedPump10S0 ∨ f = cfg.cannedPump10S1 ∨ f = cfg.cannedPump01S0 ∨ f = cfg.cannedPump01S1) := by
  cases dev with
  | va => cases h
  | vb => cases h
  | pump =>
    refine ⟨rfl, ?_⟩
    simp only [cannedLookup] at h
    split at h
    · unfold canned at h
      split at h <;> simp_all
    · cases h

end Sys2Proof.Machine
end

