-- ==== Sys2Proof/Laws/PerInstr.lean ====
section
/-! SUPPORT. One lemma per operation: the encoder puts each field of the header where 30_encoding.md R60 says. -/

namespace Sys2Proof.Laws.EncodedFields

open Sys2Proof

/-- The header of an operation has its code, its device code, its status flag, and reserved bits 00 (R60, R68). -/
def Statement (i : Instr) : Prop :=
  opField (encode i) = i.op ∧ devField (encode i) = i.dev.toBits ∧ stField (encode i) = i.st ∧
    rsvField (encode i) = 0

theorem crc16 (st : Bool) (dev : DevCode) : Statement (.crc16 st dev) := by
  unfold Statement; cases st <;> cases dev <;> decide
theorem mapDecode (st : Bool) (dev : DevCode) : Statement (.mapDecode st dev) := by
  unfold Statement; cases st <;> cases dev <;> decide
theorem mapEncode (st : Bool) (dev : DevCode) : Statement (.mapEncode st dev) := by
  unfold Statement; cases st <;> cases dev <;> decide
theorem parse (st : Bool) (dev : DevCode) : Statement (.parse st dev) := by
  unfold Statement; cases st <;> cases dev <;> decide
theorem build (st : Bool) (dev : DevCode) : Statement (.build st dev) := by
  unfold Statement; cases st <;> cases dev <;> decide
theorem pollReq (st : Bool) (dev : DevCode) : Statement (.pollReq st dev) := by
  unfold Statement; cases st <;> cases dev <;> decide
theorem command (st : Bool) (dev : DevCode) : Statement (.command st dev) := by
  unfold Statement; cases st <;> cases dev <;> decide

end Sys2Proof.Laws.EncodedFields
end

