-- ==== Sys2Proof/Laws/Step.lean ====
section
/-! SUPPORT. What an operation and a step can do, said once: every operation answers, and a step idles, is stuck on a
request that is not admitted, or answers. -/

namespace Sys2Proof.Machine

open Sys2Proof

/-- The shapes of a response (30_encoding.md R64, 60_exceptions.md R203). -/
inductive Answer (s : State) : Rsp → Prop where
  | error (e : ErrorResult) : Answer s (Rsp.ofError e)
  | crc (v : Half) : Answer s (Rsp.ofCrc v)
  | word (w : Word) : Answer s (Rsp.ofWord w)
  | coils (w : Word) (d : Device) : Answer s (Rsp.ofCoils (mapDecode w d))
  | reading (m : Mode) (d : Device) (f : Frame) : Answer s (Rsp.ofReading m (readCoils s.cfg f d))
  | built (c : CoilSeq) (d : Device) (f : Frame) : buildFrame s.cfg c d = .ok f → Answer s (Rsp.ofFrame f)
  | polled (d : Device) : Answer s (Rsp.ofFrame (poll s.cfg d))
  | canned (c : CoilSeq) (st : Bool) (d : Device) (f : Frame) :
      cannedLookup s.cfg c st d = some f → Answer s (Rsp.ofFrame f)

theorem buildFrame_answer (s : State) (c : CoilSeq) (d : Device) :
    ∃ p, respondFrame (buildFrame s.cfg c d) s = .next (s.respond p) ∧ Answer s p := by
  rcases buildFrame_cases s.cfg c d with ⟨_, h⟩ | ⟨_, _, _, _, h⟩
  · exact ⟨_, by rw [h]; rfl, .error _⟩
  · exact ⟨_, by rw [h]; rfl, .built c d _ h⟩

/-- Every operation ends normally with one whole response, and changes nothing else (60_exceptions.md R200,
20_memory.md R46). -/
theorem exec_cases (i : Instr) (s : State) : ∃ p, exec i s = .next (s.respond p) ∧ Answer s p := by
  cases i with
  | crc16 st dev => exact ⟨_, rfl, .crc _⟩
  | mapDecode st dev =>
    cases dev with
    | reserved => exact ⟨_, rfl, .error _⟩
    | va => exact ⟨_, rfl, .coils _ .va⟩
    | vb => exact ⟨_, rfl, .coils _ .vb⟩
    | pump => exact ⟨_, rfl, .coils _ .pump⟩
  | mapEncode st dev =>
    cases hd : dev.device? with
    | none => simp only [exec, execMapEncode, hd]; exact ⟨_, rfl, .error _⟩
    | some d =>
      simp only [exec, execMapEncode, hd]
      cases h : mapEncode s.req.coils d with
      | error e => exact ⟨_, rfl, .error e⟩
      | ok w => exact ⟨_, rfl, .word w⟩
  | parse st dev =>
    cases hd : dev.device? with
    | none => simp only [exec, execParse, hd]; exact ⟨_, rfl, .error _⟩
    | some d =>
      simp only [exec, execParse, hd]
      rcases parseFrame_cases s.cfg s.req.data d with h | h
      · exact ⟨_, by rw [h]; rfl, .error _⟩
      · exact ⟨_, by rw [h], .reading _ d _⟩
  | build st dev =>
    cases hd : dev.device? with
    | none => simp only [exec, execBuild, hd]; exact ⟨_, rfl, .error _⟩
    | some d => simp only [exec, execBuild, hd]; exact buildFrame_answer s _ d
  | pollReq st dev =>
    cases hd : dev.device? with
    | none => simp only [exec, execPollReq, hd]; exact ⟨_, rfl, .error _⟩
    | some d => simp only [exec, execPollReq, hd]; exact ⟨_, rfl, .polled d⟩
  | command st dev =>
    cases hd : dev.device? with
    | none => simp only [exec, execCommand, hd]; exact ⟨_, rfl, .error _⟩
    | some d =>
      simp only [exec, execCommand, hd]
      rcases commandFrame_cases s.cfg s.req.coils st d with h | h | ⟨f, hf, h⟩ | h
      · exact ⟨_, by rw [h]; rfl, .error _⟩
      · exact ⟨_, by rw [h]; rfl, .error _⟩
      · exact ⟨_, by rw [h]; rfl, .canned _ _ _ f hf⟩
      · rw [h]; exact buildFrame_answer s _ d

/-- A step of a core with no request submitted changes nothing. -/
theorem step_idle {s : State} (h : s.pending = false) : step s = .next s := by simp [step, h]

/-- A request that is not admitted has no step. -/
theorem step_stuck {s : State} (h : s.pending = true) (ha : admitted s = false) :
    step s = .fault .requestNotAdmitted := by
  simp [step, h, ha]

/-- An admitted request with an illegal header is answered ILLEGAL. -/
theorem step_illegal {s : State} (h : s.due) {e : DecodeError} (hd : decode s.req.hdr = .error e) :
    step s = respondError .illegal s := by
  simp [step, h.1, h.2, hd]

/-- Any other admitted request is performed. -/
theorem step_performs {s : State} (h : s.due) {i : Instr} (hd : decode s.req.hdr = .ok i) : step s = exec i s := by
  simp [step, h.1, h.2, hd]

/-- What a step that answers a next state has done. -/
theorem step_cases {s t : State} (h : step s = .next t) :
    (s.pending = false ∧ t = s) ∨ (s.due ∧ ∃ p, t = s.respond p ∧ Answer s p) := by
  by_cases hp : s.pending = false
  · rw [step_idle hp] at h
    exact .inl ⟨hp, by cases h; rfl⟩
  · have hp : s.pending = true := by simpa using hp
    by_cases ha : admitted s = false
    · rw [step_stuck hp ha] at h; cases h
    · have hd : s.due := ⟨hp, by simpa using ha⟩
      refine .inr ⟨hd, ?_⟩
      cases hx : decode s.req.hdr with
      | error e =>
        rw [step_illegal hd hx] at h
        exact ⟨_, by cases h; rfl, .error _⟩
      | ok i =>
        obtain ⟨p, he, hp⟩ := exec_cases i s
        rw [step_performs hd hx, he] at h
        exact ⟨p, by cases h; rfl, hp⟩

end Sys2Proof.Machine
end

