-- ==== Sys2Proof/Tests/Slice0.lean ====
section
/-! SUPPORT. Tests whose expected results are the spec's own vectors (95_test_vectors.md; each test names its id), the
decoding of words written out from 30_encoding.md R60, the smoke tests of the well-formedness check, and one witness
for each statement that has hypotheses. -/

namespace Sys2Proof.Tests

open Sys2Proof Sys2Proof.Machine

/-- The example instantiation of 95_test_vectors.md (VALVE_A_WRITE_ADDR = VALVE_B_WRITE_ADDR = 0x000A, defaults
elsewhere); the OPEN frames are short stand-ins. -/
def exCfg : Config :=
  { checkInboundCrc := false, valveAWriteAddr := 0x000A, valveBWriteAddr := 0x000A, pumpPollFrame := [0x01, 0x04],
    cannedPump10S1 := [0x10], cannedPump01S0 := [0x20, 0x21], cannedPump01S1 := [0x30, 0x31, 0x32],
    pumpAllOffPolicy := .unsupported, pumpCoilDecode := .coilWord, maxData := 255 }

/-- A state with one request submitted. -/
def asked (cfg : Config) (hdr : Byte) (coils : CoilSeq) (word : Word) (data : Frame) : State :=
  { cfg := cfg, req := Req.ofFields hdr coils word data, pending := true, rsp := Rsp.zero, answered := false }

/-- The response a step gives. -/
def response (s : State) : Option Rsp :=
  match step s with
  | .next t => some t.rsp
  | .fault _ => none
  | .refused _ => none

/-- Whether an outcome is a next state. -/
def isNext (o : Host.Outcome State Fault Refusal) : Bool :=
  match o with
  | .next _ => true
  | .fault _ => false
  | .refused _ => false

/-- A coil sequence by the positions holding 1 (95_test_vectors.md section 2.2). -/
def coilsWith (n : Nat) (ps : List Nat) : CoilSeq := (List.range n).map fun i => ps.contains i

/-! ### Well-formedness: one ill-formed term for each check -/

theorem test_wf_crc16_takes_reserved : (Instr.crc16 true .reserved).wf = true := by decide
theorem test_wf_refuses_mapDecode : (Instr.mapDecode false .reserved).wf = false := by decide
theorem test_wf_refuses_mapEncode : (Instr.mapEncode false .reserved).wf = false := by decide
theorem test_wf_refuses_parse : (Instr.parse true .reserved).wf = false := by decide
theorem test_wf_refuses_build : (Instr.build false .reserved).wf = false := by decide
theorem test_wf_refuses_pollReq : (Instr.pollReq true .reserved).wf = false := by decide
theorem test_wf_refuses_command : (Instr.command false .reserved).wf = false := by decide

/-! ### Decoding of words written out as `r r s d d o o o` -/

theorem test_decode_crc16 : decode 0b00111000#8 = .ok (.crc16 true .reserved) := by decide
theorem test_decode_mapDecode : decode 0b00100001#8 = .ok (.mapDecode true .va) := by decide
theorem test_decode_mapEncode : decode 0b00001010#8 = .ok (.mapEncode false .vb) := by decide
theorem test_decode_parse : decode 0b00010011#8 = .ok (.parse false .pump) := by decide
theorem test_decode_build : decode 0b00110100#8 = .ok (.build true .pump) := by decide
theorem test_decode_pollReq : decode 0b00001101#8 = .ok (.pollReq false .vb) := by decide
theorem test_decode_command : decode 0b00110110#8 = .ok (.command true .pump) := by decide
theorem test_decode_reserved_bits : decode 0b01000101#8 = .error .reservedBits := by decide
theorem test_decode_reserved_op : decode 0b00111111#8 = .error .reservedOp := by decide
theorem test_decode_reserved_device : decode 0b00011100#8 = .error .reservedDevice := by decide
/-- Every legal header is performed as the first instruction after reset (one for each operation). -/
theorem test_first_after_reset :
    ∀ w ∈ [0x00, 0x01, 0x0A, 0x13, 0x14, 0x05, 0x36], isNext (step (State.reset.withFetchWord 8 w)) = true ∧
      (decodeTableWord 8 w).isSome = true := by decide

/-! ### The spec's vectors -/

/-- CR8 -/
theorem test_crc16_poll_request : response (asked exCfg 0x00 [] 0 [0x01, 0x03, 0x00, 0x0A, 0x00, 0x03]) =
    some { Rsp.zero with crc := 0xC925 } := by decide +kernel
/-- CR14 (dev = 3, st = 1) -/
theorem test_crc16_reserved_device : response (asked exCfg 0x38 [] 0 [0x01]) = some { Rsp.zero with crc := 0x807E } := by
  decide +kernel
/-- CR7 (ASCII "123456789") -/
theorem test_crc16_check_value : crc16 [0x31, 0x32, 0x33, 0x34, 0x35, 0x36, 0x37, 0x38, 0x39] = 0x4B37 := by
  decide +kernel
/-- MD10 -/
theorem test_mapDecode_va : response (asked exCfg 0x01 [] 0x12345678 []) =
    some { Rsp.zero with ncoil := 27, coils := coilsWith 27 [3, 4, 5, 6, 12, 14, 16, 17, 18, 20, 21, 25] } := by
  decide +kernel
/-- MD11 -/
theorem test_mapDecode_vb : response (asked exCfg 0x09 [] 0x12345678 []) =
    some { Rsp.zero with ncoil := 27, coils := coilsWith 27 [3, 4, 5, 6, 9, 10, 12, 14, 18, 20, 21, 25] } := by
  decide +kernel
/-- ME3 -/
theorem test_mapEncode_va : response (asked exCfg 0x02 (coilsWith 27 [10, 11]) 0 []) =
    some { Rsp.zero with word := 0x00018000 } := by decide +kernel
/-- ME10 -/
theorem test_mapEncode_shape : response (asked exCfg 0x12 [true, true, false] 0 []) =
    some { Rsp.zero with res := 2 } := by decide +kernel
/-- PA1 -/
theorem test_parse_va : response (asked exCfg 0x03 [] 0
      [0x01, 0x03, 0x06, 0x01, 0x00, 0x02, 0x00, 0x04, 0x00, 0x23, 0xDC]) =
    some { Rsp.zero with mode := 1, ncoil := 27, coils := coilsWith 27 [0, 9] } := by decide +kernel
/-- PA7 and PA8: a bad checksum, without and with the inbound check -/
theorem test_parse_pump_bad_checksum :
    ∀ f ∈ [([0x01, 0x04, 0x08, 0x03, 0, 0, 0, 0, 0, 0, 0x01, 0xA5, 0x27] : Frame)],
      response (asked exCfg 0x13 [] 0 f) = some { Rsp.zero with ncoil := 2, coils := [true, true] } ∧
      response (asked { exCfg with checkInboundCrc := true } 0x13 [] 0 f) = some { Rsp.zero with res := 1 } := by
  decide +kernel
/-- BU3 -/
theorem test_build_va : response (asked exCfg 0x04 (coilsWith 27 [0, 9]) 0 []) =
    some { Rsp.zero with
      dlen := 13, data := [0x01, 0x10, 0x00, 0x0A, 0x00, 0x02, 0x04, 0x01, 0x00, 0x02, 0x00, 0x73, 0x4C] } := by
  decide +kernel
/-- BU10 -/
theorem test_build_pump : response (asked exCfg 0x14 [true, false] 0 []) =
    some { Rsp.zero with
      dlen := 13, data := [0x01, 0x10, 0x00, 0x00, 0x00, 0x02, 0x04, 0x00, 0x01, 0x00, 0x00, 0xA2, 0x6F] } := by
  decide +kernel
/-- PO2 -/
theorem test_pollReq_vb : response (asked exCfg 0x0D [] 0 []) =
    some { Rsp.zero with dlen := 8, data := [0x01, 0x03, 0x00, 0x0A, 0x00, 0x03, 0x25, 0xC9] } := by decide +kernel
/-- PO3 -/
theorem test_pollReq_pump : response (asked exCfg 0x15 [] 0 []) =
    some { Rsp.zero with dlen := 2, data := exCfg.pumpPollFrame } := by decide +kernel
/-- CO4 -/
theorem test_command_canned : response (asked exCfg 0x36 [false, true] 0 []) =
    some { Rsp.zero with dlen := 3, data := exCfg.cannedPump01S1 } := by decide +kernel
/-- CO9 and CO10 -/
theorem test_command_all_off :
    response (asked exCfg 0x16 [false, false] 0 []) = some { Rsp.zero with res := 3 } ∧
    response (asked { exCfg with pumpAllOffPolicy := .generic } 0x16 [false, false] 0 []) =
      some { Rsp.zero with
        dlen := 13, data := [0x01, 0x10, 0, 0, 0, 0x02, 0x04, 0, 0, 0, 0, 0xF3, 0xAF] } := by decide +kernel
/-- IL5: an illegal header before a wrong-length coil sequence -/
theorem test_illegal_before_shape : response (asked exCfg 0x1C [true] 0 []) = some { Rsp.zero with res := 4 } := by
  decide +kernel

/-! ### Witnesses: a concrete state and operands that meet a statement's hypotheses together -/

/-- Valve A's response of PA1. -/
def valveFrame : Frame := [0x01, 0x03, 0x06, 0x01, 0x00, 0x02, 0x00, 0x04, 0x00, 0x23, 0xDC]
/-- The pump's response of PA9. -/
def pumpFrame : Frame := [0x01, 0x04, 0x08, 0x03, 0, 0, 0, 0, 0, 0, 0x01, 0xA5, 0xD8]
/-- A request at the boundary of admission, dlen = MAX_DATA = 13. -/
def edge : State := asked { exCfg with maxData := 13 } 0x13 [] 0 pumpFrame
/-- One byte above it. -/
def aboveEdge : State := asked { exCfg with maxData := 13 } 0x07 [] 0 (pumpFrame ++ [0])

theorem witness_LegalHeadersAreTheListedOnes : (Instr.command true .pump).wf = true := by decide
theorem witness_DecodeOfEncodeIsTheOperation : (Instr.crc16 true .reserved).wf = true := by decide
theorem witness_EncodeOfDecodeIsTheHeader : decode 0x38 = .ok (.crc16 true .reserved) := by decide
theorem witness_StepPerformsTheDecodedOperation : edge.pending = true ∧ edge.req.dlen.toNat ≤ edge.cfg.maxData ∧
    decode edge.req.hdr = .ok (.parse false .pump) := by decide
theorem witness_ReservedHeaderIsAnsweredIllegal :
    ∀ h ∈ [0x40#8, 0x80#8, 0x07#8, 0x3F#8, 0x19#8, 0x1E#8],
      (asked exCfg h [] 0 []).pending = true ∧
      (asked exCfg h [] 0 []).req.dlen.toNat ≤ (asked exCfg h [] 0 []).cfg.maxData ∧
      (h.extractLsb' 6 2 ≠ 0#2 ∨ h.extractLsb' 0 3 = 7#3 ∨ (h.extractLsb' 3 2 = 3#2 ∧ h.extractLsb' 0 3 ≠ 0#3)) := by
  decide
theorem witness_PlacedHeaderIsPerformedNext : decodeTableWord 8 0x36 = some (.command true .pump) := by decide
theorem witness_RequestAboveMaxDataHasNoStep :
    aboveEdge.pending = true ∧ aboveEdge.cfg.maxData < aboveEdge.req.dlen.toNat := by decide
theorem witness_IdleStepChangesNothing : State.reset.pending = false := by decide
theorem witness_EveryAdmittedRequestIsAnswered :
    edge.pending = true ∧ edge.req.dlen.toNat ≤ edge.cfg.maxData := by decide
theorem witness_StepWritesOnlyTheResponse : isNext (step edge) = true ∧ isNext (step State.reset) = true := by
  decide +kernel
theorem witness_FailedOperationOutputsAreZero :
    (asked exCfg 0x03 [] 0 []).pending = true ∧ isNext (step (asked exCfg 0x03 [] 0 [])) = true ∧
    response (asked exCfg 0x03 [] 0 []) = some { Rsp.zero with res := 1 } := by decide +kernel
theorem witness_ErrorsComeFromTheirOperations :
    (Instr.parse false .va).wf = true ∧ (Instr.build false .pump).wf = true ∧ (Instr.command false .pump).wf = true ∧
    isNext (exec (.parse false .va) (asked exCfg 0x03 [] 0 [])) = true ∧
    isNext (exec (.build false .pump) (asked exCfg 0x14 [] 0 [])) = true ∧
    isNext (exec (.command false .pump) (asked exCfg 0x16 [false, false] 0 [])) = true := by decide +kernel
theorem witness_ResponseDependsOnRequestAndConfiguration :
    ∀ a ∈ [edge, aboveEdge], a.pending = true ∧ { a with answered := true, rsp := Rsp.ofCrc 7 } ≠ a ∧
      { a with answered := true, rsp := Rsp.ofCrc 7 }.req = a.req ∧
      { a with answered := true, rsp := Rsp.ofCrc 7 }.cfg = a.cfg := by decide
theorem witness_UnreadFieldsDoNotChangeTheResult :
    (asked exCfg 0x00 [true] 5 [1]).cfg = (asked exCfg 0x18 [true] 5 [1]).cfg ∧
    (asked exCfg 0x00 [true] 5 [1]).req ≠ (asked exCfg 0x18 [true] 5 [1]).req ∧
    (asked exCfg 0x00 [true] 5 [1]).req.data = (asked exCfg 0x18 [true] 5 [1]).req.data ∧
    (asked exCfg 0x00 [true] 5 [1]).req.word = (asked exCfg 0x18 [true] 5 [1]).req.word ∧
    (asked exCfg 0x00 [true] 5 [1]).req.coils = (asked exCfg 0x18 [true] 5 [1]).req.coils := by decide
theorem witness_EveryStepKeepsTheInvariant : Inv edge ∧ isNext (step edge) = true :=
  ⟨⟨by decide, by decide, by decide, fun _ => rfl⟩, by decide +kernel⟩
theorem witness_HostActionsKeepTheInvariant :
    Inv { edge with pending := false } ∧ edge.req.wf = true ∧
    submit edge.req { edge with pending := false } = .ok edge :=
  ⟨⟨by decide, by decide, by decide, fun _ => rfl⟩, by decide, rfl⟩
theorem witness_ResponseReadFaultsUntilTheFirstResponse :
    edge.pending = true ∧ isNext (step edge) = true ∧ State.reset.pending = false ∧
    isNext (step State.reset) = true ∧ submit edge.req { edge with pending := false } = .ok edge :=
  ⟨by decide, by decide +kernel, by decide, by decide, rfl⟩
theorem witness_ResetLosesOnlyTheUnansweredRequest :
    ({ edge with pending := false, answered := true } : State).pending = false ∧
    ∃ t p, serveOne edge.req { edge with pending := false, answered := true } = .next (t, p) :=
  ⟨by decide, _, _, rfl⟩
theorem witness_SubmissionWaitsForTheResponse : edge.pending = true ∧ State.reset.pending = false := by decide
theorem witness_RunResponsesEachFollowTheirOwnRequest :
    ({ edge with pending := false } : State).pending = false ∧
    ∀ r ∈ [edge.req, (asked exCfg 0x07 [] 0 []).req], r.dlen.toNat ≤ ({ edge with pending := false } : State).cfg.maxData := by
  decide
theorem witness_ReorderReversesTheWindow : (coilsWith 27 [9]).length = 27 ∧ 17 < 27 := by decide
theorem witness_ReorderIsItsOwnInverse : (coilsWith 27 [9]).length = 27 := by decide
theorem witness_MapEncodePacksTheCoils :
    (coilsWith 26 []).length ≠ ncoilOf .va ∧ (coilsWith 27 [0, 9]).length = ncoilOf .va := by decide
theorem witness_MapDecodeAndEncodeRoundTrip :
    (coilsWith 27 [0, 9]).length = ncoilOf .va ∧ [true, false].length = ncoilOf .pump := by decide
theorem witness_MapEncodeCompletesWithTheWord :
    (asked exCfg 0x02 (coilsWith 27 [10, 11]) 0 []).req.coils.length = ncoilOf .va := by decide
theorem witness_WrongCoilCountIsInvalidShape :
    (asked exCfg 0x06 (coilsWith 26 []) 0 []).req.coils.length ≠ ncoilOf .va ∧
    (asked exCfg 0x14 (coilsWith 28 []) 0 []).req.coils.length ≠ ncoilOf .vb ∧
    (asked exCfg 0x36 [true, false, true] 0 []).req.coils.length ≠ ncoilOf .pump := by decide
theorem witness_CoilWordIsLittleEndian : 3 < 4 ∧ 7 < 8 := by decide
theorem witness_ChecksumIsAppendedLowByteFirst : buildFrame exCfg [false, true] .pump =
    .ok [0x01, 0x10, 0x00, 0x00, 0x00, 0x02, 0x04, 0x00, 0x00, 0x00, 0x01, 0x32, 0x6F] := by decide +kernel
theorem witness_ParseRejectsWrongLengthOrFunctionCode :
    pumpFrame.length ≠ 11 ∧ valveFrame.length ≠ 13 ∧ pumpFrame[1]? ≠ some 3#8 ∧ valveFrame[1]? ≠ some 4#8 ∧
    crcValid pumpFrame = true ∧ crcValid valveFrame = true := by decide +kernel
theorem witness_RejectedBufferIsInvalidFrame :
    ({ exCfg with checkInboundCrc := true } : Config).checkInboundCrc = true ∧
    valveFrame.length ≠ (if Device.pump = .pump then 13 else 11) ∧
    byteAt [0x01, 0x03, 0x08, 0x03, 0, 0, 0, 0, 0, 0, 0x01, 0x14, 0x02] 1 ≠ (if Device.pump = .pump then 4#8 else 3#8) ∧
    crcValid [0x01, 0x04, 0x08, 0x03, 0, 0, 0, 0, 0, 0, 0x01, 0xA5, 0x27] = false := by decide +kernel
theorem witness_ValveResponseIsReadAsTheSpecSays :
    Device.va ≠ .pump ∧ (asked exCfg 0x03 [] 0 valveFrame).req.data.length = 11 ∧
    byteAt (asked exCfg 0x03 [] 0 valveFrame).req.data 1 = 3#8 ∧ crcValid valveFrame = true := by decide +kernel
theorem witness_PumpResponseIsReadAsTheSpecSays :
    edge.cfg.pumpCoilDecode = .coilWord ∧ edge.req.data.length = 13 ∧ byteAt edge.req.data 1 = 4#8 ∧
    crcValid edge.req.data = true := by decide +kernel
theorem witness_PumpCoilsAreReadAtTheConfiguredPositions :
    ({ exCfg with pumpCoilDecode := .positions ⟨4, 0⟩ ⟨12, 7⟩ } : Config).pumpCoilDecode = .positions ⟨4, 0⟩ ⟨12, 7⟩ ∧
    pumpFrame.length = 13 ∧ byteAt pumpFrame 1 = 4#8 ∧ crcValid pumpFrame = true := by decide +kernel
theorem witness_ParseDoesNotReadTheOtherBytes :
    exCfg.checkInboundCrc = false ∧ exCfg.pumpCoilDecode = .coilWord ∧
    pumpFrame.length = (pumpFrame.set 0 2).length ∧ pumpFrame ≠ pumpFrame.set 0 2 ∧
    ∀ i ∈ [1, 3, 10], byteAt pumpFrame i = byteAt (pumpFrame.set 0 2) i := by decide
theorem witness_BuiltFrameIsTheWriteFrame :
    (coilsWith 26 []).length ≠ ncoilOf .vb ∧ Device.vb ≠ .pump ∧ (coilsWith 27 [0, 9]).length = 27 := by decide
theorem witness_BuiltFramesAreValid : buildFrame exCfg [true, true] .pump =
    .ok [0x01, 0x10, 0x00, 0x00, 0x00, 0x02, 0x04, 0x00, 0x01, 0x00, 0x01, 0x63, 0xAF] := by decide +kernel
theorem witness_BuildCompletesWithTheFrame :
    (asked exCfg 0x14 [true, true] 0 []).req.coils.length = ncoilOf .pump := by decide
theorem witness_MirroredValveReadingKeepsItsPayload : Device.va ≠ .pump ∧
    parseFrame exCfg valveFrame .va = some ⟨.remoteMode, coilsWith 27 [0, 9]⟩ := by decide +kernel
theorem witness_ValveCommandIsTheGenericFrame :
    Device.va ≠ .pump ∧ (asked exCfg 0x26 (coilsWith 27 [0, 9]) 0 []).req.coils.length = 27 := by decide
theorem witness_PumpCommandAnswersTheSelectedFrame :
    (asked exCfg 0x16 [true, false] 0 []).req.coils.length = 2 ∧
    commandFrame exCfg [true, false] false .pump = .ok cannedPump10S0 ∧ [true, false] ≠ [false, false] ∧
    (asked exCfg 0x16 [false, false] 0 []).req.coils = [false, false] ∧ exCfg.pumpAllOffPolicy = .unsupported := by
  decide +kernel
theorem witness_OnlyThePumpsAllOffIsUnsupported :
    ({ exCfg with pumpAllOffPolicy := .generic } : Config).pumpAllOffPolicy = .generic ∧
    commandFrame exCfg [false, false] true .pump = .error .unsupported := by decide +kernel

end Sys2Proof.Tests
end

/-! PROOFS. The statements of 10_state.md: what a step writes, what a response depends on, and the invariant. -/

namespace Sys2Proof.Machine

open Sys2Proof

/-! ### Legal instantiations and well-formed responses -/

theorem Config.wf_iff (c : Config) :
    c.wf = true ↔ (13 ≤ c.maxData ∧ c.maxData ≤ 65535) ∧ c.pumpPollFrame.length ≤ 65535 ∧
      c.cannedPump10S1.length ≤ 65535 ∧ c.cannedPump01S0.length ≤ 65535 ∧ c.cannedPump01S1.length ≤ 65535 := by
  simp [Config.wf, and_assoc]

/-- A 16-bit count field holds any length up to 65535 (10_state.md R25). -/
theorem toNat_ofNat_half {n : Nat} (h : n ≤ 65535) : (BitVec.ofNat 16 n).toNat = n :=
  (BitVec.toNat_ofNat ..).trans (Nat.mod_eq_of_lt (by omega))

/-- A response with result code OK is well formed as soon as its counts are coherent. -/
theorem Rsp.wf_of_ok {r : Rsp} (hres : r.res = 0) (hcoils : r.coils.length = r.ncoil.toNat)
    (hdata : r.data.length = r.dlen.toNat) : r.wf = true := by
  simp [Rsp.wf, hres, hcoils, hdata]

theorem Rsp.ofError_wf (e : ErrorResult) : (Rsp.ofError e).wf = true := by cases e <;> decide

theorem Rsp.ofCoils_wf {c : CoilSeq} (h : c.length ≤ 65535) : (Rsp.ofCoils c).wf = true :=
  Rsp.wf_of_ok rfl (toNat_ofNat_half h).symm rfl

theorem Rsp.ofReading_wf (m : Mode) {c : CoilSeq} (h : c.length ≤ 65535) : (Rsp.ofReading m c).wf = true :=
  Rsp.wf_of_ok rfl (toNat_ofNat_half h).symm rfl

theorem Rsp.ofFrame_wf {f : Frame} (h : f.length ≤ 65535) : (Rsp.ofFrame f).wf = true :=
  Rsp.wf_of_ok rfl rfl (toNat_ofNat_half h).symm

/-! ### Lengths of the sequences an operation answers -/

theorem ncoilOf_le (dev : Device) : ncoilOf dev ≤ 27 := by cases dev <;> decide

/-- A reading has the device's coil count wherever its coils sit in the response (42_frame_codec.md R134). -/
@[simp] theorem readCoils_length (cfg : Config) (d : Frame) (dev : Device) :
    (readCoils cfg d dev).length = ncoilOf dev := by
  unfold readCoils
  split
  · rfl
  · exact mapDecode_length _ _

/-- A built frame has the 13 bytes of format WRITE_MULTI (30_encoding.md R74). -/
theorem buildFrame_length {cfg : Config} {c : CoilSeq} {dev : Device} {f : Frame}
    (h : buildFrame cfg c dev = .ok f) : f.length = 13 := by
  rcases buildFrame_cases cfg c dev with ⟨_, he⟩ | ⟨_, p, _, hp, hok⟩
  · rw [he] at h; cases h
  · rw [hok] at h
    cases h
    simp [hp]

theorem poll_length_le {cfg : Config} (hcfg : cfg.wf = true) (dev : Device) : (poll cfg dev).length ≤ 65535 := by
  obtain ⟨_, hpoll, _⟩ := (Config.wf_iff cfg).1 hcfg
  cases dev with
  | va => exact (by decide : valvePollFrame.length ≤ 65535)
  | vb => exact (by decide : valvePollFrame.length ≤ 65535)
  | pump => exact hpoll

theorem cannedLookup_length_le {cfg : Config} (hcfg : cfg.wf = true) {c : CoilSeq} {st : Bool} {dev : Device}
    {f : Frame} (h : cannedLookup cfg c st dev = some f) : f.length ≤ 65535 := by
  obtain ⟨_, _, h10S1, h01S0, h01S1⟩ := (Config.wf_iff cfg).1 hcfg
  obtain ⟨_, rfl | rfl | rfl | rfl⟩ := cannedLookup_cases h
  · decide
  · exact h10S1
  · exact h01S0
  · exact h01S1

/-- Under a legal instantiation every response an operation can give is well formed. -/
theorem Answer.wf {s : State} {p : Rsp} (hcfg : s.cfg.wf = true) (h : Answer s p) : p.wf = true := by
  have ncoil_fits (dev : Device) : ncoilOf dev ≤ 65535 := (ncoilOf_le dev).trans (by decide)
  cases h with
  | error e => exact Rsp.ofError_wf e
  | crc v => exact Rsp.wf_of_ok rfl rfl rfl
  | word w => exact Rsp.wf_of_ok rfl rfl rfl
  | coils w d => exact Rsp.ofCoils_wf ((mapDecode_length w d).le.trans (ncoil_fits d))
  | reading m d f => exact Rsp.ofReading_wf m ((readCoils_length s.cfg f d).le.trans (ncoil_fits d))
  | built c d f hf => exact Rsp.ofFrame_wf ((buildFrame_length hf).le.trans (by decide))
  | polled d => exact Rsp.ofFrame_wf (poll_length_le hcfg d)
  | canned c st d f hf => exact Rsp.ofFrame_wf (cannedLookup_length_le hcfg hf)

theorem Inv.respond {s : State} {p : Rsp} (h : Inv s) (hp : p.wf = true) : Inv (s.respond p) where
  cfg := h.cfg
  req := h.req
  rsp := hp
  unanswered := fun hu => by cases hu

/-- Settles O16: a step leaves the state as it is or writes one well-formed response. -/
theorem everyStepKeepsTheInvariant : Obligations.EveryStepKeepsTheInvariant := by
  intro s t hinv hstep
  rcases step_cases hstep with ⟨_, rfl⟩ | ⟨_, p, rfl, hp⟩
  · exact hinv
  · exact hinv.respond (hp.wf hinv.cfg)

/-- Settles O11: the two cases of a step, read field by field. -/
theorem stepWritesOnlyTheResponse : Obligations.StepWritesOnlyTheResponse := by
  intro s t hstep
  rcases step_cases hstep with ⟨hidle, rfl⟩ | ⟨⟨hpending, _⟩, p, rfl, _⟩
  · simp [hidle]
  · simp [hpending]

/-! ### What a response depends on (10_state.md R32) -/

/-- States with the same configuration and request differ in what a response overwrites only. -/
theorem respond_congr {s t : State} (hreq : s.req = t.req) (hcfg : s.cfg = t.cfg) (p : Rsp) :
    s.respond p = t.respond p := by
  simp [State.respond, hreq, hcfg]

/-- No operation reads the response register or the two handshake facts. -/
theorem exec_respond (i : Instr) (s : State) (p : Rsp) : exec i (s.respond p) = exec i s := by
  cases i <;> rfl

theorem exec_congr (i : Instr) {s t : State} (hreq : s.req = t.req) (hcfg : s.cfg = t.cfg) : exec i s = exec i t := by
  rw [← exec_respond i s Rsp.zero, respond_congr hreq hcfg, exec_respond]

theorem admitted_congr {s t : State} (hreq : s.req = t.req) (hcfg : s.cfg = t.cfg) : admitted s = admitted t := by
  simp [admitted, hreq, hcfg]

/-- An admitted request is answered, whatever its header. -/
theorem step_due {s : State} (h : s.due) : ∃ p, step s = .next (s.respond p) ∧ Answer s p := by
  cases hd : decode s.req.hdr with
  | error e => exact ⟨_, step_illegal h hd, .error _⟩
  | ok i =>
    rw [step_performs h hd]
    exact exec_cases i s

/-- The whole next state, and not the response alone, is a function of the request and the configuration. -/
theorem step_congr_of_due {s t : State} (hs : s.due) (ht : t.due) (hreq : s.req = t.req) (hcfg : s.cfg = t.cfg) :
    step s = step t := by
  cases hd : decode s.req.hdr with
  | error e =>
    rw [step_illegal hs hd, step_illegal ht (hreq ▸ hd), respondError_eq, respondError_eq, respond_congr hreq hcfg]
  | ok i => rw [step_performs hs hd, step_performs ht (hreq ▸ hd), exec_congr i hreq hcfg]

/-- Settles O14: both requests are admitted, and the steps are equal, or neither is, and both are stuck. -/
theorem responseDependsOnRequestAndConfiguration : Obligations.ResponseDependsOnRequestAndConfiguration := by
  intro s t hs ht hreq hcfg
  have hadm : admitted s = admitted t := admitted_congr hreq hcfg
  cases ha : admitted s with
  | false => exact .inr ⟨step_stuck hs ha, step_stuck ht (hadm ▸ ha)⟩
  | true =>
    have hdue : s.due := ⟨hs, ha⟩
    obtain ⟨p, hstep, _⟩ := step_due hdue
    have heq : step s = step t := step_congr_of_due hdue ⟨ht, hadm ▸ ha⟩ hreq hcfg
    exact .inl ⟨_, _, hstep, heq ▸ hstep, rfl⟩

/-! ### The profile table (10_state.md R27) -/

/-- Settles O40: the three columns and both rules as the table is written. -/
theorem profileTableIsTheSpecs : Obligations.ProfileTableIsTheSpecs :=
  fun _ => ⟨rfl, rfl, rfl, fun _ => ⟨rfl, rfl⟩⟩

end Sys2Proof.Machine

/-! PROOFS. The statements of 20_memory.md: the byte order of the coil word, the step of a submitted request, the bound
on `REQ.dlen`, and runs of requests. -/

namespace Sys2Proof.Machine

open Sys2Proof

/-! ### A submitted request and its bound (20_memory.md R46, R52) -/

/-- Settles O5: the request is due, so the step is the decoded operation. -/
theorem stepPerformsTheDecodedOperation : Obligations.StepPerformsTheDecodedOperation :=
  fun s _ hpending hle hd => step_performs ⟨hpending, (admitted_iff s).2 hle⟩ hd

theorem admitted_eq_false_iff (s : State) : admitted s = false ↔ s.cfg.maxData < s.req.dlen.toNat := by
  simp [admitted]

/-- MAX_DATA of the instantiation is in the range of R52, whatever the OPEN parameter is. -/
theorem Config.instantiated_maxData_range :
    13 ≤ Config.instantiated.maxData ∧ Config.instantiated.maxData ≤ 65535 := by
  have hopen : Config.openMaxDataAbove13.val < 65523 := Config.openMaxDataAbove13.isLt
  have hdata : Config.instantiated.maxData = Config.openMaxDataAbove13.val + 13 := rfl
  omega

/-- Settles O8: above the bound the request is not admitted, and the header is never looked at. -/
theorem requestAboveMaxDataHasNoStep : Obligations.RequestAboveMaxDataHasNoStep :=
  ⟨fun s hpending hlt => step_stuck hpending ((admitted_eq_false_iff s).2 hlt), Config.instantiated_maxData_range⟩

/-! ### The byte order of the coil word (20_memory.md R43) -/

theorem byteAt_le32 (w : Word) {j : Nat} (hj : j < 4) : byteAt (le32 w) j = w.extractLsb' (8 * j) 8 := by
  match j, hj with
  | 0, _ => rfl
  | 1, _ => rfl
  | 2, _ => rfl
  | 3, _ => rfl

/-- A byte shifted to place i of a word shows its bits in place i, and 0 in every other place. -/
theorem getLsbD_byte_shiftLeft (c : Byte) (i : Nat) {j b : Nat} (hj : j < 4) (hb : b < 8) :
    (c.setWidth 32 <<< (8 * i)).getLsbD (8 * j + b) = (decide (i = j) && c.getLsbD b) := by
  have h32 : 8 * j + b < 32 := by omega
  simp only [BitVec.getLsbD_shiftLeft, BitVec.getLsbD_setWidth, h32]
  rcases Nat.lt_trichotomy i j with h | rfl | h
  · have hout : 8 ≤ 8 * j + b - 8 * i := by omega
    simp [h.ne, BitVec.getLsbD_of_ge c _ hout]
  · simp [show b < 32 by omega]
  · simp [h.ne', show 8 * j + b < 8 * i by omega]

theorem getLsbD_rdLE32 (f : Frame) (k : Nat) {j b : Nat} (hj : j < 4) (hb : b < 8) :
    (rdLE32 f k).getLsbD (8 * j + b) = (byteAt f (k + j)).getLsbD b := by
  have hplace (c : Byte) (i : Nat) := getLsbD_byte_shiftLeft c i hj hb
  have hread : rdLE32 f k = (byteAt f k).setWidth 32 <<< (8 * 0) ||| (byteAt f (k + 1)).setWidth 32 <<< (8 * 1) |||
      (byteAt f (k + 2)).setWidth 32 <<< (8 * 2) ||| (byteAt f (k + 3)).setWidth 32 <<< (8 * 3) := by
    simp [rdLE32]
  simp only [hread, BitVec.getLsbD_or, hplace]
  match j, hj with
  | 0, _ => simp
  | 1, _ => simp
  | 2, _ => simp
  | 3, _ => simp

/-- Settles O39: bit b of byte j is bit 8j + b of the word, both ways. -/
theorem coilWordIsLittleEndian : Obligations.CoilWordIsLittleEndian := by
  constructor
  · intro w j b hj hb
    simp [byteAt_le32 w hj, hb]
  · intro f k j b hj hb
    exact getLsbD_rdLE32 f k hj hb

/-! ### Runs of requests (20_memory.md R47, R48; 60_exceptions.md R215, R218) -/

/-- Serving a request is the step after its submission, and then the read of the response. -/
theorem serveOne_of_step {r : Req} {s t : State} (hidle : s.pending = false)
    (hstep : step { s with req := r, pending := true } = .next t) (hans : t.answered = true) :
    serveOne r s = .next (t, t.rsp) := by
  simp [serveOne, submit_idle r hidle, hstep, readRsp_answered hans]

/-- Every idle state of the configuration, whatever was served before, answers the request with the response. -/
def AnswersFromIdle (cfg : Config) (r : Req) (p : Rsp) : Prop :=
  ∀ s : State, s.pending = false → s.cfg = cfg → ∃ t, serveOne r s = .next (t, p) ∧ t.cfg = cfg ∧ t.pending = false

/-- An admissible request has one response, the same from every idle state of its configuration. -/
theorem Req.admissible.answersFromIdle {cfg : Config} {r : Req} (h : r.admissible cfg) :
    ∃ p, AnswersFromIdle cfg r p := by
  have due {s : State} (hcfg : s.cfg = cfg) : State.due { s with req := r, pending := true } :=
    ⟨rfl, (admitted_iff _).2 (hcfg ▸ h)⟩
  have hcfg₀ : ({ State.reset with cfg := cfg } : State).cfg = cfg := rfl
  obtain ⟨p, hstep, _⟩ := step_due (due hcfg₀)
  refine ⟨p, fun s hidle hcfg => ?_⟩
  have heq := step_congr_of_due (due hcfg) (due hcfg₀) rfl hcfg
  exact ⟨_, serveOne_of_step hidle (heq.trans hstep) rfl, rfl, rfl⟩

theorem serve_cons {r : Req} {rs : List Req} {s s₁ t : State} {p : Rsp} {ps : List Rsp}
    (hone : serveOne r s = .next (s₁, p)) (hrest : serve rs s₁ = .next (t, ps)) :
    serve (r :: rs) s = .next (t, p :: ps) := by
  simp [serve, hone, hrest]

/-- A run of admissible requests from an idle state ends idle, and each response is its own request's. -/
theorem serve_admissible {rs : List Req} {s : State} (hidle : s.pending = false)
    (hadm : ∀ r ∈ rs, r.admissible s.cfg) :
    ∃ t ps, serve rs s = .next (t, ps) ∧ t.cfg = s.cfg ∧ t.pending = false ∧
      List.Forall₂ (AnswersFromIdle s.cfg) rs ps := by
  induction rs generalizing s with
  | nil => exact ⟨s, [], rfl, rfl, hidle, .nil⟩
  | cons r rs ih =>
    obtain ⟨hr, hrs⟩ := List.forall_mem_cons.1 hadm
    obtain ⟨p, hp⟩ := hr.answersFromIdle
    obtain ⟨s₁, hone, hcfg₁, hidle₁⟩ := hp s hidle rfl
    obtain ⟨t, ps, hrest, hcfg, hidle, hps⟩ := ih hidle₁ (hcfg₁ ▸ hrs)
    exact ⟨t, p :: ps, serve_cons hone hrest, hcfg.trans hcfg₁, hidle, .cons hp (hcfg₁ ▸ hps)⟩

/-- Settles O23: by induction on the requests (`serve_admissible`); the core just reset is one of the idle states. -/
theorem runResponsesEachFollowTheirOwnRequest : Obligations.RunResponsesEachFollowTheirOwnRequest := by
  intro s rs hidle hadm
  obtain ⟨t, ps, hserve, hcfg, hend, hps⟩ := serve_admissible hidle hadm
  refine ⟨t, ps, hserve, hcfg, hend, hps.length_eq.symm, fun k hk hp => ?_⟩
  obtain ⟨t', halone, _⟩ := hps.get hk hp (hardReset s) rfl rfl
  exact ⟨t', halone⟩

end Sys2Proof.Machine

/-! PROOFS. The statements of 30_encoding.md: the header byte and its decoder, illegal requests, the fields an operation
reads, the host's writes, and the frame formats. -/

namespace Sys2Proof

/-! ### The fields of a header byte (30_encoding.md R60, R62, R63) -/

/-- The byte has the operation's code, device code and status flag in their places, and reserved bits 00 (R60). -/
structure Header (h : Byte) (i : Instr) : Prop where
  op : opField h = i.op
  dev : devField h = i.dev.toBits
  st : stField h = i.st
  rsv : rsvField h = 0#2

/-- The encoder puts every field in its place (R68). -/
theorem header_encode (i : Instr) : Header (encode i) i := by
  have hfields : Laws.EncodedFields.Statement i := by
    cases i with
    | crc16 st dev => exact Laws.EncodedFields.crc16 st dev
    | mapDecode st dev => exact Laws.EncodedFields.mapDecode st dev
    | mapEncode st dev => exact Laws.EncodedFields.mapEncode st dev
    | parse st dev => exact Laws.EncodedFields.parse st dev
    | build st dev => exact Laws.EncodedFields.build st dev
    | pollReq st dev => exact Laws.EncodedFields.pollReq st dev
    | command st dev => exact Laws.EncodedFields.command st dev
  obtain ⟨hop, hdev, hst, hrsv⟩ := hfields
  exact ⟨hop, hdev, hst, hrsv⟩

/-- Bytes with an equal field have equal bits in it. -/
theorem getLsbD_eq_of_extractLsb'_eq {x y : Byte} {lo n : Nat} (h : x.extractLsb' lo n = y.extractLsb' lo n) (k : Nat)
    (hk : k < n) : x.getLsbD (lo + k) = y.getLsbD (lo + k) := by
  simpa [hk] using congrArg (·.getLsbD k) h

/-- An operation has one header: its four fields fix the bits 2:0, 4:3, 5 and 7:6. -/
theorem Header.unique {h h' : Byte} {i : Instr} (hh : Header h i) (hh' : Header h' i) : h = h' := by
  have hop := getLsbD_eq_of_extractLsb'_eq (hh.op.trans hh'.op.symm)
  have hdev := getLsbD_eq_of_extractLsb'_eq (hh.dev.trans hh'.dev.symm)
  have hst : stField h = stField h' := hh.st.trans hh'.st.symm
  have hrsv := getLsbD_eq_of_extractLsb'_eq (hh.rsv.trans hh'.rsv.symm)
  refine BitVec.eq_of_getLsbD_eq fun k hk => ?_
  match k, hk with
  | 0, _ => exact hop 0 (by decide)
  | 1, _ => exact hop 1 (by decide)
  | 2, _ => exact hop 2 (by decide)
  | 3, _ => exact hdev 0 (by decide)
  | 4, _ => exact hdev 1 (by decide)
  | 5, _ => exact hst
  | 6, _ => exact hrsv 0 (by decide)
  | 7, _ => exact hrsv 1 (by decide)

@[simp] theorem DevCode.ofBits_toBits (dev : DevCode) : DevCode.ofBits dev.toBits = dev := by cases dev <;> rfl

@[simp] theorem DevCode.toBits_ofBits (b : BitVec 2) : (DevCode.ofBits b).toBits = b := by revert b; decide

theorem DevCode.toBits_ne_three_iff (dev : DevCode) : dev.toBits ≠ 3#2 ↔ dev ≠ .reserved := by cases dev <;> decide

theorem DevCode.legal_iff (dev : DevCode) : dev.legal = true ↔ dev ≠ .reserved := by cases dev <;> decide

/-- The reserved device code is legal for operation 0, CRC16, alone (R65). -/
theorem Instr.wf_iff (i : Instr) : i.wf = true ↔ i.dev ≠ .reserved ∨ i.op = 0 := by
  cases i <;> simp [Instr.wf, Instr.dev, Instr.op, DevCode.legal_iff]

/-- Code 7 names no operation (R62). -/
theorem Instr.op_ne_seven (i : Instr) : i.op ≠ 7#3 := by cases i <;> simp [Instr.op]

/-! ### The decoder (R65, R68) -/

theorem withDevice_eq_ok_iff {dev : DevCode} {i j : Instr} :
    withDevice dev i = .ok j ↔ dev.legal = true ∧ i = j := by
  cases dev <;> simp [withDevice, DevCode.legal]

/-- The decoder answers with the well-formed operation the byte is a header of, and with no other. -/
theorem decode_eq_ok_iff {h : Byte} {i : Instr} : decode h = .ok i ↔ i.wf = true ∧ Header h i := by
  constructor
  · intro hd
    unfold decode at hd
    split at hd
    · cases hd
    · next hrsv =>
      have header {j : Instr} (hop : (opField h).toNat = j.op.toNat) (hdev : j.dev = .ofBits (devField h))
          (hst : j.st = stField h) : Header h j :=
        ⟨BitVec.eq_of_toNat_eq hop, by simp [hdev], hst.symm, not_not.1 hrsv⟩
      split at hd
      case h_1 hop => cases hd; exact ⟨rfl, header hop rfl rfl⟩
      case h_8 => cases hd
      all_goals
        next hop =>
        obtain ⟨hlegal, rfl⟩ := withDevice_eq_ok_iff.1 hd
        exact ⟨hlegal, header hop rfl rfl⟩
  · rintro ⟨hwf, hop, hdev, hst, hrsv⟩
    cases i
    case crc16 => simp [decode, hop, hdev, hst, hrsv, Instr.op, Instr.dev, Instr.st]
    all_goals
      simpa [decode, hop, hdev, hst, hrsv, Instr.op, Instr.dev, Instr.st, withDevice_eq_ok_iff, Instr.wf] using hwf

theorem decode_encode {i : Instr} (hwf : i.wf = true) : decode (encode i) = .ok i :=
  decode_eq_ok_iff.2 ⟨hwf, header_encode i⟩

theorem encode_of_decode {h : Byte} {i : Instr} (hd : decode h = .ok i) : encode i = h :=
  (header_encode i).unique (decode_eq_ok_iff.1 hd).2

/-- Settles O3: the encoded byte is a header of the operation (`header_encode`), and a header is decoded to it. -/
theorem decodeOfEncodeIsTheOperation : Obligations.DecodeOfEncodeIsTheOperation :=
  fun _ hwf => decode_encode hwf

/-- Settles O4: the byte and the encoding are headers of one operation, so they are equal (`Header.unique`). -/
theorem encodeOfDecodeIsTheHeader : Obligations.EncodeOfDecodeIsTheHeader :=
  fun _ _ hd => ⟨(decode_eq_ok_iff.1 hd).1, encode_of_decode hd⟩

/-- Settles O1: each byte is run through the decoder. -/
theorem specHeadersDecodeAsWritten : Obligations.SpecHeadersDecodeAsWritten := by
  unfold Obligations.SpecHeadersDecodeAsWritten
  decide

/-- The bytes of R68's table, row by row, and CRC16's two with the reserved device. -/
def legalHeaders : List Byte :=
  [0x00#8, 0x08#8, 0x10#8, 0x20#8, 0x28#8, 0x30#8, 0x01#8, 0x09#8, 0x11#8, 0x21#8, 0x29#8, 0x31#8,
    0x02#8, 0x0A#8, 0x12#8, 0x22#8, 0x2A#8, 0x32#8, 0x03#8, 0x0B#8, 0x13#8, 0x23#8, 0x2B#8, 0x33#8,
    0x04#8, 0x0C#8, 0x14#8, 0x24#8, 0x2C#8, 0x34#8, 0x05#8, 0x0D#8, 0x15#8, 0x25#8, 0x2D#8, 0x35#8,
    0x06#8, 0x0E#8, 0x16#8, 0x26#8, 0x2E#8, 0x36#8, 0x18#8, 0x38#8]

/-- Every choice of the fields that R65 leaves legal gives a listed byte. -/
theorem headerBits_mem_legalHeaders : ∀ (st : Bool) (dev : BitVec 2) (op : BitVec 3), dev ≠ 3#2 ∨ op = 0#3 →
    op ≠ 7#3 → (BitVec.ofBool st).setWidth 8 <<< 5 ||| dev.setWidth 8 <<< 3 ||| op.setWidth 8 ∈ legalHeaders := by
  decide

theorem encode_mem_legalHeaders {i : Instr} (hwf : i.wf = true) : encode i ∈ legalHeaders := by
  rw [Instr.wf_iff, ← i.dev.toBits_ne_three_iff] at hwf
  exact headerBits_mem_legalHeaders i.st i.dev.toBits i.op hwf i.op_ne_seven

theorem decode_isSome_of_mem_legalHeaders : ∀ h ∈ legalHeaders, (decode h).toOption.isSome = true := by decide

/-- R68's formula with the status flag written as its bit, 32. -/
theorem encode_eq (i : Instr) :
    encode i = (if i.st then 32#8 else 0#8) ||| (i.dev.toBits.setWidth 8 <<< 3) ||| i.op.setWidth 8 := by
  have hst (st : Bool) : (BitVec.ofBool st).setWidth 8 <<< 5 = if st then 32#8 else 0#8 := by cases st <;> rfl
  rw [encode, hst]

/-- Settles O2: a decoded byte is the encoding of a well-formed operation (`encode_of_decode`), and all of these are
listed; each listed byte decodes. -/
theorem legalHeadersAreTheListedOnes : Obligations.LegalHeadersAreTheListedOnes := by
  refine ⟨fun i _ => encode_eq i, fun h => ⟨fun hsome => ?_, decode_isSome_of_mem_legalHeaders h⟩⟩
  cases hd : decode h with
  | error e => simp [hd, Except.toOption] at hsome
  | ok i => exact encode_of_decode hd ▸ encode_mem_legalHeaders (decode_eq_ok_iff.1 hd).1

/-- What makes a request illegal (R65): reserved bits, operation 7, or device 3 where the operation reads the device. -/
theorem decode_reserved {h : Byte}
    (hres : rsvField h ≠ 0#2 ∨ opField h = 7#3 ∨ (devField h = 3#2 ∧ opField h ≠ 0#3)) : ∃ e, decode h = .error e := by
  cases hd : decode h with
  | error e => exact ⟨e, rfl⟩
  | ok i =>
    obtain ⟨hwf, hop, hdev, _, hrsv⟩ := decode_eq_ok_iff.1 hd
    rcases hres with hbits | hop7 | ⟨hdev3, hop0⟩
    · exact absurd hrsv hbits
    · exact absurd (hop.symm.trans hop7) i.op_ne_seven
    · rw [Instr.wf_iff, ← i.dev.toBits_ne_three_iff, ← hdev, ← hop] at hwf
      exact absurd hwf (not_or.2 ⟨not_not.2 hdev3, hop0⟩)

end Sys2Proof

namespace Sys2Proof.Machine

open Sys2Proof

/-! ### Illegal requests and the placed header (R65; 10_state.md R24) -/

/-- Settles O6: the header is refused (`decode_reserved`), so the step answers ILLEGAL. -/
theorem reservedHeaderIsAnsweredIllegal : Obligations.ReservedHeaderIsAnsweredIllegal := by
  intro s hpending hle hres
  obtain ⟨e, hd⟩ := decode_reserved hres
  exact step_illegal ⟨hpending, (admitted_iff s).2 hle⟩ hd

/-- An ill-formed operation is ILLEGAL, whatever else the request holds. -/
theorem exec_of_not_wf {i : Instr} (h : i.wf ≠ true) (s : State) : exec i s = respondError .illegal s := by
  obtain ⟨hdev, hop⟩ : i.dev = .reserved ∧ i.op ≠ 0 := by simpa [Instr.wf_iff] using h
  cases i with
  | crc16 st dev => exact absurd rfl hop
  | mapDecode st dev => cases hdev; rfl
  | mapEncode st dev => cases hdev; rfl
  | parse st dev => cases hdev; rfl
  | build st dev => cases hdev; rfl
  | pollReq st dev => cases hdev; rfl
  | command st dev => cases hdev; rfl

/-- Settles O38: none of the six operations is well formed with the reserved device. -/
theorem reservedDeviceIsIllegal : Obligations.ReservedDeviceIsIllegal := by
  intro st s i hi
  have hwf : i.wf ≠ true := by
    revert i
    simp [Instr.wf, DevCode.legal]
  exact exec_of_not_wf hwf s

theorem decode_of_decodeTableWord {nbits w : Nat} {i : Instr} (h : decodeTableWord nbits w = some i) :
    decode (BitVec.ofNat 8 (w % 2 ^ nbits)) = .ok i := by
  unfold decodeTableWord at h
  split at h
  · split at h
    · next hd => cases h; exact hd
    · cases h
  · cases h

/-- A placed header is submitted and admitted: a buffer above the bound was emptied. -/
theorem withFetchWord_due (s : State) (nbits w : Nat) : (s.withFetchWord nbits w).due := by
  refine ⟨rfl, (admitted_iff _).2 ?_⟩
  cases ha : admitted s with
  | false => simp [State.withFetchWord, ha]
  | true => simpa [State.withFetchWord, ha] using (admitted_iff s).1 ha

/-- Settles O7: the placed header is due, and it decodes to the operation. -/
theorem placedHeaderIsPerformedNext : Obligations.PlacedHeaderIsPerformedNext :=
  fun s w _ h => step_performs (withFetchWord_due s 8 w) (decode_of_decodeTableWord h)

/-! ### The fields an operation reads (R66; 10_state.md R24) -/

/-- The response of an operation that reads its device: ILLEGAL where the device code is the reserved one. -/
def deviceRsp (dev : DevCode) (answer : Device → Rsp) : Rsp :=
  match dev.device? with
  | none => Rsp.ofError .illegal
  | some d => answer d

/-- The response to a value or an error. -/
def resultRsp {α : Type} (answer : α → Rsp) : Except ErrorResult α → Rsp
  | .error e => Rsp.ofError e
  | .ok a => answer a

/-- The response to a parsed buffer: INVALID_FRAME, or the reading (42_frame_codec.md R135). -/
def parseRsp : Option Reading → Rsp
  | none => Rsp.ofError .invalidFrame
  | some r => Rsp.ofReading r.mode r.coils

section
variable (st : Bool) (dev : DevCode) (s : State)

theorem exec_crc16 : exec (.crc16 st dev) s = .next (s.respond (Rsp.ofCrc (crc16 s.req.data))) := rfl

theorem exec_mapDecode : exec (.mapDecode st dev) s =
    .next (s.respond (deviceRsp dev fun d => Rsp.ofCoils (mapDecode s.req.word d))) := by
  cases dev <;> rfl

theorem exec_mapEncode : exec (.mapEncode st dev) s =
    .next (s.respond (deviceRsp dev fun d => resultRsp Rsp.ofWord (mapEncode s.req.coils d))) := by
  simp only [exec, execMapEncode, deviceRsp]
  cases dev.device? with
  | none => rfl
  | some d =>
    dsimp only
    cases mapEncode s.req.coils d <;> rfl

theorem exec_parse : exec (.parse st dev) s =
    .next (s.respond (deviceRsp dev fun d => parseRsp (parseFrame s.cfg s.req.data d))) := by
  simp only [exec, execParse, deviceRsp]
  cases dev.device? with
  | none => rfl
  | some d =>
    dsimp only
    cases parseFrame s.cfg s.req.data d <;> rfl

theorem respondFrame_eq (r : Except ErrorResult Frame) :
    respondFrame r s = .next (s.respond (resultRsp Rsp.ofFrame r)) := by
  cases r <;> rfl

theorem exec_build : exec (.build st dev) s =
    .next (s.respond (deviceRsp dev fun d => resultRsp Rsp.ofFrame (buildFrame s.cfg s.req.coils d))) := by
  simp only [exec, execBuild, deviceRsp, respondFrame_eq]
  cases dev <;> rfl

theorem exec_pollReq : exec (.pollReq st dev) s =
    .next (s.respond (deviceRsp dev fun d => Rsp.ofFrame (poll s.cfg d))) := by
  cases dev <;> rfl

theorem exec_command : exec (.command st dev) s =
    .next (s.respond (deviceRsp dev fun d => resultRsp Rsp.ofFrame (commandFrame s.cfg s.req.coils st d))) := by
  simp only [exec, execCommand, deviceRsp, respondFrame_eq]
  cases dev <;> rfl

end

/-- Settles O15: each operation's equation (`exec_crc16` to `exec_command`) names all that its response is made of. -/
theorem unreadFieldsDoNotChangeTheResult : Obligations.UnreadFieldsDoNotChangeTheResult := by
  intro s t a b d e hcfg
  refine ⟨fun hdata => ?_, fun hword => ?_, fun hcoils => ?_, fun hdata => ?_, fun hcoils => ?_, ?_, fun hcoils => ?_⟩
  · exact ⟨_, exec_crc16 a d s, by rw [exec_crc16, hdata]⟩
  · exact ⟨_, exec_mapDecode a d s, by rw [exec_mapDecode, hword]⟩
  · exact ⟨_, exec_mapEncode a d s, by rw [exec_mapEncode, hcoils]⟩
  · exact ⟨_, exec_parse a d s, by rw [exec_parse, hdata, hcfg]⟩
  · exact ⟨_, exec_build a d s, by rw [exec_build, hcoils, hcfg]⟩
  · exact ⟨_, exec_pollReq a d s, by rw [exec_pollReq, hcfg]⟩
  · exact ⟨_, exec_command a d s, by rw [exec_command, hcoils, hcfg]⟩

/-! ### The host's writes (R61; 70_reset_and_hazards.md R241, R242) -/

theorem Inv.hardReset {s : State} (h : Inv s) : Inv (hardReset s) where
  cfg := h.cfg
  req := (by decide : Req.zero.wf = true)
  rsp := (by decide : Rsp.zero.wf = true)
  unanswered := fun _ => rfl

theorem Inv.submit {r : Req} {s t : State} (h : Inv s) (hr : r.wf = true) (hsub : submit r s = .ok t) : Inv t := by
  obtain ⟨_, rfl⟩ := submit_cases hsub
  exact ⟨h.cfg, hr, h.rsp, h.unanswered⟩

/-- Settles O18: reset writes coherent zeros, and a submission writes the request alone. -/
theorem hostActionsKeepTheInvariant : Obligations.HostActionsKeepTheInvariant :=
  fun _ h => ⟨h.hardReset, fun _ _ hr hsub => h.submit hr hsub⟩

/-! ### Checksummed frames (R70; 40_checksum.md R101, R102) -/

/-- Two bytes, read low byte first as one value, are the bytes of that value. -/
theorem le16_of_bytes (lo hi : Byte) : le16 (lo.setWidth 16 ||| hi.setWidth 16 <<< 8) = [lo, hi] := by
  have hlow : (lo.setWidth 16 ||| hi.setWidth 16 <<< 8).extractLsb' 0 8 = lo := by
    ext k hk
    simp [hk, show k < 16 by omega]
  have hhigh : (lo.setWidth 16 ||| hi.setWidth 16 <<< 8).extractLsb' 8 8 = hi := by
    ext k hk
    simp [hk, show 8 + k < 16 by omega]
  rw [le16, hlow, hhigh]

/-- The last two bytes of a sequence are the bytes of the value read there. -/
theorem drop_eq_le16_rdLE16 {f : Frame} {k : Nat} (h : f.length = k + 2) : f.drop k = le16 (rdLE16 f k) := by
  rw [rdLE16, le16_of_bytes]
  have h0 : k < f.length := by omega
  have h1 : k + 1 < f.length := by omega
  have hend : f.drop (k + 1 + 1) = [] := List.drop_eq_nil_of_le h.le
  rw [List.drop_eq_getElem_cons h0, List.drop_eq_getElem_cons h1, hend]
  simp [byteAt, h0, h1]

theorem crcValid_iff (f : Frame) : crcValid f = true ↔
    2 ≤ f.length ∧ crc16 (f.take (f.length - 2)) = rdLE16 f (f.length - 2) := by
  simp [crcValid, slice]

theorem crcValid_crcAppend (g : Frame) : crcValid (crcAppend g) = true := by
  have hlen : (crcAppend g).length - 2 = g.length := by simp
  rw [crcValid_iff, hlen]
  refine ⟨by simp, ?_⟩
  rw [crcAppend, List.take_left, rdLE16_append_le16]

/-- A valid frame is its first part with the checksum of that part appended. -/
theorem eq_crcAppend_of_crcValid {f : Frame} (h : crcValid f = true) : f = crcAppend (f.take (f.length - 2)) := by
  obtain ⟨hlen, hcrc⟩ := (crcValid_iff f).1 h
  rw [crcAppend, hcrc, ← drop_eq_le16_rdLE16 (by omega), List.take_append_drop]

/-- Settles O28: `crcValid_crcAppend` one way, `eq_crcAppend_of_crcValid` the other. -/
theorem validFramesAreChecksummedSequences : Obligations.ValidFramesAreChecksummedSequences := by
  refine fun f => ⟨fun h => ⟨_, eq_crcAppend_of_crcValid h⟩, ?_⟩
  rintro ⟨g, rfl⟩
  exact crcValid_crcAppend g

/-! ### The bytes PARSE reads (R72, R73) -/

/-- Without the inbound checksum check PARSE looks at the length, byte 1, the mode byte and the coil bytes only. -/
theorem parseFrame_congr {cfg : Config} {f g : Frame} {dev : Device} (hcrc : cfg.checkInboundCrc = false)
    (hlen : f.length = g.length) (hfc : byteAt f 1 = byteAt g 1)
    (hmode : readMode (profile cfg dev).modeRule f = readMode (profile cfg dev).modeRule g)
    (hcoils : readCoils cfg f dev = readCoils cfg g dev) : parseFrame cfg f dev = parseFrame cfg g dev := by
  simp only [parseFrame, hcrc, hlen, hfc, hmode, hcoils, Bool.false_and]

theorem readMode_valve_congr {f g : Frame} (h : byteAt f 7 = byteAt g 7) : readMode .valve f = readMode .valve g := by
  simp only [readMode, h]

theorem readMode_pump_congr {f g : Frame} (h : byteAt f 10 = byteAt g 10) : readMode .pump f = readMode .pump g := by
  simp only [readMode, h]

/-- A coil word is made of its own four bytes. -/
theorem rdLE32_congr {f g : Frame} {k : Nat} (h : ∀ j < 4, byteAt f (k + j) = byteAt g (k + j)) :
    rdLE32 f k = rdLE32 g k := by
  have h0 : byteAt f k = byteAt g k := h 0 (by decide)
  rw [rdLE32, rdLE32, h0, h 1 (by decide), h 2 (by decide), h 3 (by decide)]

/-- At the default PUMP_COIL_DECODE the pump's coils are bits 0 and 1 of byte 3 (42_frame_codec.md R134). -/
theorem readCoils_pump {cfg : Config} (hpos : cfg.pumpCoilDecode = .coilWord) (f : Frame) :
    readCoils cfg f .pump = [(byteAt f 3).getLsbD 0, (byteAt f 3).getLsbD 1] := by
  have hbits (w : Word) : mapDecode w .pump = [w.getLsbD 0, w.getLsbD 1] := rfl
  have hbit {b : Nat} (hb : b < 8) : (rdLE32 f 3).getLsbD b = (byteAt f 3).getLsbD b := by
    simpa using getLsbD_rdLE32 f 3 (j := 0) (by decide) hb
  simp only [readCoils, hpos, profile, hbits]
  rw [hbit (by decide), hbit (by decide)]

/-- Settles O47: the mode and the coils of each device come from the bytes named (`parseFrame_congr`). -/
theorem parseDoesNotReadTheOtherBytes : Obligations.ParseDoesNotReadTheOtherBytes := by
  intro cfg f g dev hcrc hpos hlen hbytes
  have valveWord (hb : ∀ i ∈ [1, 3, 4, 5, 6, 7], byteAt f i = byteAt g i) : rdLE32 f 3 = rdLE32 g 3 :=
    rdLE32_congr fun j hj => hb (3 + j) (by interval_cases j <;> decide)
  cases dev with
  | va =>
    exact parseFrame_congr hcrc hlen (hbytes 1 (by decide)) (readMode_valve_congr (hbytes 7 (by decide)))
      (congrArg (mapDecode · .va) (valveWord hbytes))
  | vb =>
    exact parseFrame_congr hcrc hlen (hbytes 1 (by decide)) (readMode_valve_congr (hbytes 7 (by decide)))
      (congrArg (mapDecode · .vb) (valveWord hbytes))
  | pump =>
    refine parseFrame_congr hcrc hlen (hbytes 1 (by decide)) (readMode_pump_congr (hbytes 10 (by decide))) ?_
    rw [readCoils_pump hpos, readCoils_pump hpos, hbytes 3 (by decide)]

end Sys2Proof.Machine

/-! PROOFS. The statements of 40_checksum.md: the operation CRC16, the bitwise algorithm, appending the checksum,
validity, and the checksum over a checksummed frame. -/

namespace Sys2Proof.Machine

open Sys2Proof

/-! ### The rounds of one byte (40_checksum.md R100) -/

/-- The model recurses from the first round; this is the same rounds counted from the last. -/
theorem crcRounds_succ (n : Nat) (acc : Half) : crcRounds (n + 1) acc = crcRound (crcRounds n acc) := by
  induction n generalizing acc with
  | zero => rfl
  | succ n ih => exact ih (crcRound acc)

theorem crc16_append_byte (f : Frame) (b : Byte) : crc16 (f ++ [b]) = crcRounds 8 (crc16 f ^^^ b.setWidth 16) :=
  crc16_append f [b]

/-- Settles O25: the accumulators are those after each number of rounds. -/
theorem checksumFollowsTheBitwiseAlgorithm : Obligations.ChecksumFollowsTheBitwiseAlgorithm :=
  ⟨crc16_nil, fun f b => ⟨(crcRounds · (crc16 f ^^^ b.setWidth 16)), rfl, fun k _ => crcRounds_succ k _,
    crc16_append_byte f b⟩⟩

/-! ### The checksum over a checksummed frame (95_test_vectors.md section 2.1) -/

/-- Rounds that find only clear low bits never meet the polynomial: they shift. -/
theorem crcRounds_of_low_bits_clear {n : Nat} {acc : Half} (h : ∀ i < n, acc.getLsbD i = false) :
    crcRounds n acc = acc >>> n := by
  induction n generalizing acc with
  | zero => exact (BitVec.ushiftRight_zero acc).symm
  | succ n ih =>
    have hround : crcRound acc = acc >>> 1 := if_neg (by rw [h 0 n.succ_pos]; decide)
    have hclear : ∀ i < n, (acc >>> 1).getLsbD i = false := fun i hi => by
      rw [BitVec.getLsbD_ushiftRight]
      exact h (1 + i) (by omega)
    rw [crcRounds, hround, ih hclear, ← BitVec.shiftRight_add, Nat.add_comm]

/-- The accumulator's own low byte clears that byte, and the rounds bring the high byte down. -/
theorem crcByte_own_low_byte (v : Half) : crcByte v (v.extractLsb' 0 8) = v >>> 8 := by
  have hbit (i : Nat) : (v ^^^ (v.extractLsb' 0 8).setWidth 16).getLsbD i = (!decide (i < 8) && v.getLsbD i) := by
    by_cases h8 : i < 8
    · simp [h8, show i < 16 by omega]
    · simp [h8]
  rw [crcByte, crcRounds_of_low_bits_clear fun i hi => by simp [hbit, hi]]
  refine BitVec.eq_of_getLsbD_eq fun i _ => ?_
  rw [BitVec.getLsbD_ushiftRight, BitVec.getLsbD_ushiftRight, hbit]
  simp

/-- A byte equal to the accumulator leaves 0, which the rounds keep. -/
theorem crcByte_setWidth_self (b : Byte) : crcByte (b.setWidth 16) b = 0 := by
  rw [crcByte, BitVec.xor_self, crcRounds_of_low_bits_clear fun _ _ => BitVec.getLsbD_zero]
  exact BitVec.zero_ushiftRight

theorem ushiftRight_eq_high_byte (v : Half) : v >>> 8 = (v.extractLsb' 8 8).setWidth 16 := by
  refine BitVec.eq_of_getLsbD_eq fun i hi => ?_
  by_cases h8 : i < 8
  · simp [h8, hi]
  · simp [h8, BitVec.getLsbD_of_ge v (8 + i) (by omega)]

/-- The low byte of the accumulator leaves its high byte, and the high byte leaves 0. -/
theorem foldl_crcByte_own_bytes (v : Half) : (le16 v).foldl crcByte v = 0 := calc
  (le16 v).foldl crcByte v = crcByte (crcByte v (v.extractLsb' 0 8)) (v.extractLsb' 8 8) := rfl
  _ = crcByte ((v.extractLsb' 8 8).setWidth 16) (v.extractLsb' 8 8) := by
    rw [crcByte_own_low_byte, ushiftRight_eq_high_byte]
  _ = 0 := crcByte_setWidth_self _

/-- Settles O29: the appended bytes are those of the accumulator they meet. -/
theorem checksumOverAChecksummedFrameIsZero : Obligations.ChecksumOverAChecksummedFrameIsZero := by
  intro f
  rw [crcAppend, crc16_append, foldl_crcByte_own_bytes]

/-! ### The operation CRC16 (40_checksum.md R103) -/

/-- Settles O24: CRC16 checks nothing and answers the checksum alone. -/
theorem crc16CompletesWithTheChecksum : Obligations.Crc16CompletesWithTheChecksum :=
  fun _ _ _ => rfl

/-! ### Appending and checking (40_checksum.md R101, R102; 20_memory.md R42) -/

theorem crcAppend_eq (f : Frame) : crcAppend f = f ++ [(crc16 f).extractLsb' 0 8, (crc16 f).extractLsb' 8 8] := rfl

theorem buildFrame_eq_crcAppend {cfg : Config} {c : CoilSeq} {dev : Device} {f : Frame}
    (h : buildFrame cfg c dev = .ok f) : ∃ g, f = crcAppend g := by
  rcases buildFrame_cases cfg c dev with ⟨_, he⟩ | ⟨_, p, _, _, hok⟩
  · rw [he] at h; cases h
  · rw [hok] at h
    cases h
    exact ⟨_, rfl⟩

/-- The worked check of R42: the checksum the valve poll frame carries. -/
theorem crc16_valvePoll : crc16 [0x01, 0x03, 0x00, 0x0A, 0x00, 0x03] = 0xC925#16 := by decide +kernel

/-- Settles O26: the poll frame's last two bytes are those of its checksum. -/
theorem checksumIsAppendedLowByteFirst : Obligations.ChecksumIsAppendedLowByteFirst := by
  refine ⟨crcAppend_eq, fun _ _ _ _ => buildFrame_eq_crcAppend, crc16_valvePoll, ?_⟩
  rw [crcAppend_eq, crc16_valvePoll]
  rfl

/-- Settles O27: where there are two last bytes, the second one is the byte after the first. -/
theorem validityComparesTheLastTwoBytes : Obligations.ValidityComparesTheLastTwoBytes := by
  intro f
  rw [crcValid_iff]
  refine and_congr_right fun hlen => ?_
  have hlast : f.length - 2 + 1 = f.length - 1 := by omega
  rw [rdLE16, hlast, byteAt, byteAt]

end Sys2Proof.Machine

/-! PROOFS. The statements of 41_coil_mapper.md: the reorder quirk, the bits of the coil word, the round trip, the
operations MAP_DECODE and MAP_ENCODE, and a valve reading built back into a command (95_test_vectors.md P2). -/

namespace Sys2Proof.Machine

open Sys2Proof

/-! ### The reorder quirk (41_coil_mapper.md R110, R111) -/

theorem getElem?_eq_coilAt {s : CoilSeq} {i : Nat} (h : i < s.length) : s[i]? = some (coilAt s i) := by
  simp [coilAt, h]

/-- `Rev` takes each position from where ROM.perm says; perm fixes every position beyond the 27. -/
theorem rev_getElem? {s : CoilSeq} (h : s.length = 27) (i : Nat) : (rev s)[i]? = s[perm i]? := by
  by_cases hi : i < 27
  · rw [getElem?_eq_coilAt (s := s) (h ▸ perm_lt hi)]
    simp [rev, h, hi]
  · have hperm : perm i = i := if_neg (by omega)
    rw [hperm, List.getElem?_eq_none (by simp; omega), List.getElem?_eq_none (by omega)]

theorem rev_rev {s : CoilSeq} (h : s.length = 27) : rev (rev s) = s :=
  List.ext_getElem? fun i => by rw [rev_getElem? (by simp [h]), rev_getElem? h, perm_perm]

theorem reordered_eq (dev : Device) (s : CoilSeq) : reordered dev s = if dev = .va then rev s else s := by
  cases dev <;> rfl

theorem reordered_reordered {dev : Device} {s : CoilSeq} (h : s.length = ncoilOf dev) :
    reordered dev (reordered dev s) = s := by
  cases dev with
  | va => exact rev_rev h
  | vb => rfl
  | pump => rfl

/-- Settles O30: ROM.perm is written out in `rev_getElem?`, and the reorder flag is Valve A's alone. -/
theorem reorderReversesTheWindow : Obligations.ReorderReversesTheWindow := by
  refine ⟨fun s i h _ => ?_, reordered_eq⟩
  rw [rev_getElem? h, perm]
  exact apply_ite (s[·]?) ..

/-- Settles O31: ROM.perm is its own inverse (`rev_rev`). -/
theorem reorderIsItsOwnInverse : Obligations.ReorderIsItsOwnInverse :=
  fun _ => rev_rev

/-! ### Bits and coils (R112, R114) -/

theorem unpackBits_getElem? (n : Nat) (w : Word) (i : Nat) :
    (unpackBits n w)[i]? = if i < n then some (w.getLsbD i) else none := by
  split
  · next hi => simp [unpackBits, hi]
  · next hi => simp [unpackBits, hi]

/-- Settles O32: the unpacked bits for the valves' 27 positions, in ROM.perm's order for Valve A. -/
theorem mapDecodeTakesBitsOfTheWord : Obligations.MapDecodeTakesBitsOfTheWord := by
  refine fun w => ⟨mapDecode_length w .va, mapDecode_length w .vb, rfl, fun i hi => ⟨?_, ?_⟩⟩
  · exact (unpackBits_getElem? 27 w i).trans (if_pos hi)
  · calc (rev (unpackBits 27 w))[i]?
      _ = (unpackBits 27 w)[perm i]? := rev_getElem? (unpackBits_length 27 w) i
      _ = some (w.getLsbD (perm i)) := (unpackBits_getElem? 27 w _).trans (if_pos (perm_lt hi))
      _ = _ := by rw [perm, apply_ite w.getLsbD]

theorem coilAt_of_length_le {s : CoilSeq} {i : Nat} (h : s.length ≤ i) : coilAt s i = false :=
  List.getD_eq_default _ _ h

theorem coilAt_rev {s : CoilSeq} (h : s.length = 27) (i : Nat) : coilAt (rev s) i = coilAt s (perm i) := by
  simp only [coilAt, List.getD_eq_getElem?_getD, rev_getElem? h]

theorem coilAt_reordered {dev : Device} {s : CoilSeq} (h : s.length = ncoilOf dev) (i : Nat) :
    coilAt (reordered dev s) i = coilAt s (if dev = .va ∧ 9 ≤ i ∧ i ≤ 17 then 26 - i else i) := by
  cases dev with
  | va => simpa [reordered_eq, perm] using coilAt_rev h i
  | vb => simp [reordered_eq]
  | pump => simp [reordered_eq]

/-- The packed word holds coil i in bit i, in Valve A's order for Valve A, and 0 from the coil count up (R114). -/
theorem packBits_reordered_getLsbD {dev : Device} {c : CoilSeq} (h : c.length = ncoilOf dev) (i : Nat) :
    (packBits (reordered dev c)).getLsbD i =
      (decide (i < ncoilOf dev) && coilAt c (if dev = .va ∧ 9 ≤ i ∧ i ≤ 17 then 26 - i else i)) := by
  rw [packBits_getLsbD]
  by_cases hi : i < ncoilOf dev
  · have h32 : i < 32 := by have := ncoilOf_le dev; omega
    rw [coilAt_reordered h, decide_eq_true hi, decide_eq_true h32]
  · rw [coilAt_of_length_le (by simp; omega), decide_eq_false hi, Bool.and_false, Bool.false_and]

theorem mapEncode_of_length {c : CoilSeq} {dev : Device} (h : c.length = ncoilOf dev) :
    mapEncode c dev = .ok (packBits (reordered dev c)) :=
  if_neg (not_not_intro h)

/-- Settles O33: a wrong length is refused; the bits of the packed word are `packBits_reordered_getLsbD`. -/
theorem mapEncodePacksTheCoils : Obligations.MapEncodePacksTheCoils := by
  refine fun c dev => ⟨fun h => if_pos h, fun h => ⟨_, mapEncode_of_length h, fun i => ?_⟩⟩
  rw [packBits_reordered_getLsbD h, Bool.and_eq_true, decide_eq_true_iff, coilAt]

/-! ### The round trip (R116) -/

theorem unpackBits_packBits {c : CoilSeq} (h : c.length ≤ 32) : unpackBits c.length (packBits c) = c := by
  refine List.ext_getElem? fun i => ?_
  rw [unpackBits_getElem?]
  split
  · next hi =>
    have h32 : i < 32 := by omega
    rw [packBits_getLsbD, decide_eq_true h32, Bool.true_and, getElem?_eq_coilAt hi]
  · next hi => exact (List.getElem?_eq_none (by omega)).symm

theorem packBits_unpackBits (n : Nat) (w : Word) :
    packBits (unpackBits n w) = w &&& BitVec.ofNat 32 (2 ^ n - 1) := by
  refine BitVec.eq_of_getLsbD_eq fun i hi => ?_
  have hcoil : coilAt (unpackBits n w) i = (decide (i < n) && w.getLsbD i) := by
    rw [coilAt, List.getD_eq_getElem?_getD, unpackBits_getElem?]
    split
    · next hn => simp [hn]
    · next hn => simp [hn]
  rw [packBits_getLsbD, hcoil, BitVec.getLsbD_and, BitVec.getLsbD_ofNat, Nat.testBit_two_pow_sub_one]
  simp [hi, Bool.and_comm]

theorem mapDecode_packBits {dev : Device} {c : CoilSeq} (h : c.length = ncoilOf dev) :
    mapDecode (packBits (reordered dev c)) dev = c := by
  have hlen : (reordered dev c).length = ncoilOf dev := by rw [reordered_length, h]
  have hunpack : unpackBits (ncoilOf dev) (packBits (reordered dev c)) = reordered dev c := by
    rw [← hlen]
    exact unpackBits_packBits (by have := ncoilOf_le dev; omega)
  rw [mapDecode, hunpack, reordered_reordered h]

theorem mapEncode_mapDecode (dev : Device) (w : Word) :
    mapEncode (mapDecode w dev) dev = .ok (w &&& BitVec.ofNat 32 (2 ^ ncoilOf dev - 1)) := by
  rw [mapEncode_of_length (mapDecode_length w dev), mapDecode, reordered_reordered (unpackBits_length ..),
    packBits_unpackBits]

/-- Settles O34: the order is undone by itself, and packing and unpacking are inverse below the coil count. -/
theorem mapDecodeAndEncodeRoundTrip : Obligations.MapDecodeAndEncodeRoundTrip :=
  ⟨fun _ _ h => ⟨_, mapEncode_of_length h, mapDecode_packBits h⟩, mapEncode_mapDecode⟩

/-! ### The operations MAP_DECODE and MAP_ENCODE (R113, R115) -/

@[simp] theorem deviceRsp_devCode (d : Device) (answer : Device → Rsp) : deviceRsp d.devCode answer = answer d := by
  cases d <;> rfl

/-- Settles O35: the count written is the length of the decoded sequence. -/
theorem mapDecodeCompletesWithTheCoils : Obligations.MapDecodeCompletesWithTheCoils := by
  intro st d s
  rw [exec_mapDecode, deviceRsp_devCode, Rsp.ofCoils, mapDecode_length]
  rfl

/-- Settles O36: with the right count the mapper answers a word. -/
theorem mapEncodeCompletesWithTheWord : Obligations.MapEncodeCompletesWithTheWord := by
  intro st d s h
  refine ⟨_, mapEncode_of_length h, ?_⟩
  rw [exec_mapEncode, deviceRsp_devCode, mapEncode_of_length h]
  rfl

/-! ### A valve reading built back into a command (95_test_vectors.md P2; R116, R117; 42_frame_codec.md R134, R140) -/

theorem eq_of_parseFrame_eq_some {cfg : Config} {d : Frame} {dev : Device} {r : Reading}
    (h : parseFrame cfg d dev = some r) : r = ⟨readMode (profile cfg dev).modeRule d, readCoils cfg d dev⟩ := by
  rcases parseFrame_cases cfg d dev with hnone | hsome
  · rw [hnone] at h; cases h
  · exact Option.some.inj (h.symm.trans hsome)

theorem ncoilOf_valve {dev : Device} (hdev : dev ≠ .pump) : ncoilOf dev = 27 := by
  cases dev with
  | va => rfl
  | vb => rfl
  | pump => exact absurd rfl hdev

theorem readCoils_valve {dev : Device} (hdev : dev ≠ .pump) (cfg : Config) (d : Frame) :
    readCoils cfg d dev = mapDecode (rdLE32 d 3) dev := by
  cases dev with
  | va => rfl
  | vb => rfl
  | pump => exact absurd rfl hdev

/-- A valve's payload is the packed word, low byte first (R140). -/
theorem buildFrame_valve {dev : Device} (hdev : dev ≠ .pump) (cfg : Config) {c : CoilSeq} {w : Word}
    (h : mapEncode c dev = .ok w) : buildFrame cfg c dev = .ok (crcAppend (writeHeader cfg dev ++ le32 w)) := by
  have hpayload : writePayload c dev = .ok (le32 w) := by
    cases dev with
    | va => rw [writePayload, h]; rfl
    | vb => rw [writePayload, h]; rfl
    | pump => exact absurd rfl hdev
  rcases buildFrame_cases cfg c dev with ⟨hlen, _⟩ | ⟨_, p, hp, _, hok⟩
  · rw [mapEncode, if_pos hlen] at h; cases h
  · cases hpayload.symm.trans hp
    exact hok

/-- The payload of a write frame stands in its bytes 7 to 10 (30_encoding.md R74). -/
theorem slice_payload (cfg : Config) (dev : Device) {p : Frame} (hp : p.length = 4) :
    slice (crcAppend (writeHeader cfg dev ++ p)) 7 11 = p := by
  have hbody : (writeHeader cfg dev ++ p).length = 11 := by simp [hp]
  rw [slice, crcAppend, List.take_left' hbody, List.drop_left' (writeHeader_length cfg dev)]

/-- Byte j of a word read at k is byte k + j of the sequence (20_memory.md R43). -/
theorem extractLsb'_rdLE32 (f : Frame) (k : Nat) {j : Nat} (hj : j < 4) :
    (rdLE32 f k).extractLsb' (8 * j) 8 = byteAt f (k + j) := by
  refine BitVec.eq_of_getLsbD_eq fun b hb => ?_
  simp [hb, getLsbD_rdLE32 f k hj hb]

theorem le32_rdLE32 (f : Frame) (k : Nat) :
    le32 (rdLE32 f k) = [byteAt f k, byteAt f (k + 1), byteAt f (k + 2), byteAt f (k + 3)] := by
  have hbyte {j : Nat} (hj : j < 4) := extractLsb'_rdLE32 f k hj
  rw [le32, ← hbyte (j := 1) (by decide), ← hbyte (j := 2) (by decide), ← hbyte (j := 3) (by decide)]
  exact congrArg (· :: _) (hbyte (j := 0) (by decide))

theorem le32_and (v w : Word) : le32 (v &&& w) = List.zipWith (· &&& ·) (le32 v) (le32 w) := by
  simp [le32, BitVec.extractLsb'_and]

/-- The coil word of a response, cut to 27 coils, has the response's bytes but for the five high bits of the last. -/
theorem le32_coilWord (d : Frame) : le32 (rdLE32 d 3 &&& BitVec.ofNat 32 (2 ^ 27 - 1)) =
    [byteAt d 3, byteAt d 4, byteAt d 5, byteAt d 6 &&& 0x07#8] := by
  have hmask : le32 (BitVec.ofNat 32 (2 ^ 27 - 1)) = [0xFF#8, 0xFF#8, 0xFF#8, 0x07#8] := by decide
  have hwhole (b : Byte) : b &&& 0xFF#8 = b := BitVec.and_allOnes
  rw [le32_and, le32_rdLE32, hmask]
  simp [hwhole]

/-- Settles O52: the reading's coils are packed to the response's coil word without the bits above coil 26
(`mapEncode_mapDecode`), and its bytes are the payload. -/
theorem mirroredValveReadingKeepsItsPayload : Obligations.MirroredValveReadingKeepsItsPayload := by
  intro cfg d dev r hdev hparse
  have hcoils : r.coils = mapDecode (rdLE32 d 3) dev := by
    rw [eq_of_parseFrame_eq_some hparse, readCoils_valve hdev]
  have hword : mapEncode r.coils dev = .ok (rdLE32 d 3 &&& BitVec.ofNat 32 (2 ^ 27 - 1)) := by
    rw [hcoils, mapEncode_mapDecode, ncoilOf_valve hdev]
  exact ⟨_, buildFrame_valve hdev cfg hword, (slice_payload cfg dev (le32_length _)).trans (le32_coilWord d)⟩

end Sys2Proof.Machine

/-! PROOFS. The statements of 42_frame_codec.md: what PARSE accepts, rejects and reads, the frame BUILD makes, and the
constant frames of POLL_REQ. -/

namespace Sys2Proof.Machine

open Sys2Proof

/-! ### The checks of PARSE (42_frame_codec.md R131, R132, R133) -/

/-- A buffer that passes the length, function-code and configured checksum checks (`parseFrame_isSome_iff`). -/
def PassesChecks (cfg : Config) (d : Frame) (dev : Device) : Prop :=
  d.length = (profile cfg dev).respLen ∧ byteAt d 1 = (profile cfg dev).respFc ∧
    (cfg.checkInboundCrc = true → crcValid d = true)

theorem parseFrame_isSome_iff {cfg : Config} {d : Frame} {dev : Device} :
    (parseFrame cfg d dev).isSome = true ↔ PassesChecks cfg d dev := by
  unfold parseFrame PassesChecks
  split
  · next hlen => simp [hlen]
  · next hlen =>
    split
    · next hfc => simp [hfc]
    · next hfc =>
      rw [not_not] at hlen hfc
      cases cfg.checkInboundCrc with
      | false => simp [hlen, hfc]
      | true => cases hcrc : crcValid d <;> simp [hlen, hfc]

theorem parseFrame_of_passesChecks {cfg : Config} {d : Frame} {dev : Device} (h : PassesChecks cfg d dev) :
    parseFrame cfg d dev = some ⟨readMode (profile cfg dev).modeRule d, readCoils cfg d dev⟩ := by
  obtain ⟨r, hr⟩ := Option.isSome_iff_exists.1 (parseFrame_isSome_iff.2 h)
  rw [hr, eq_of_parseFrame_eq_some hr]

theorem parseFrame_of_not_passesChecks {cfg : Config} {d : Frame} {dev : Device} (h : ¬ PassesChecks cfg d dev) :
    parseFrame cfg d dev = none :=
  Option.not_isSome_iff_eq_none.1 (mt parseFrame_isSome_iff.1 h)

theorem profile_respLen (cfg : Config) (dev : Device) :
    (profile cfg dev).respLen = if dev = .pump then 13 else 11 := by
  cases dev <;> rfl

theorem profile_respFc (cfg : Config) (dev : Device) :
    (profile cfg dev).respFc = if dev = .pump then 4#8 else 3#8 := by
  cases dev <;> rfl

theorem getElem?_eq_byteAt {f : Frame} {i : Nat} (h : i < f.length) : f[i]? = some (byteAt f i) := by
  simp [byteAt, h]

/-- A buffer of a response's length has a byte 1, so its function code can be read either way. -/
theorem getElem?_one_eq_some_iff {cfg : Config} {d : Frame} {dev : Device} (hlen : d.length = (profile cfg dev).respLen)
    (fc : Byte) : d[1]? = some fc ↔ byteAt d 1 = fc := by
  have h1 : 1 < d.length := by
    rw [hlen, profile_respLen]
    split <;> decide
  rw [getElem?_eq_byteAt h1, Option.some_inj]

theorem parseFrame_of_wrong_length {cfg : Config} {d : Frame} {dev : Device}
    (h : d.length ≠ (profile cfg dev).respLen) : parseFrame cfg d dev = none :=
  parseFrame_of_not_passesChecks fun ⟨hlen, _⟩ => h hlen

theorem parseFrame_of_wrong_functionCode {cfg : Config} {d : Frame} {dev : Device}
    (h : d[1]? ≠ some (profile cfg dev).respFc) : parseFrame cfg d dev = none :=
  parseFrame_of_not_passesChecks fun ⟨hlen, hfc, _⟩ => h ((getElem?_one_eq_some_iff hlen _).2 hfc)

/-- Settles O41: one rejection lemma for each check, at each device's column of the profile. -/
theorem parseRejectsWrongLengthOrFunctionCode : Obligations.ParseRejectsWrongLengthOrFunctionCode :=
  fun _ _ => ⟨fun h => ⟨parseFrame_of_wrong_length h, parseFrame_of_wrong_length h⟩,
    fun h => parseFrame_of_wrong_length h,
    fun h => ⟨parseFrame_of_wrong_functionCode h, parseFrame_of_wrong_functionCode h⟩,
    fun h => parseFrame_of_wrong_functionCode h⟩

/-- Settles O42: the checks of `PassesChecks`, with the profile's columns written out. -/
theorem parseAcceptsExactlyTheProfilesFrames : Obligations.ParseAcceptsExactlyTheProfilesFrames := by
  intro cfg d dev
  rw [parseFrame_isSome_iff, PassesChecks, ← profile_respLen cfg, ← profile_respFc cfg]
  refine and_congr_right fun hlen => ?_
  rw [getElem?_one_eq_some_iff hlen]

/-! ### The operation PARSE (R134, R135) -/

theorem exec_parse_of_not_passesChecks {d : Device} {s : State} (st : Bool)
    (h : ¬ PassesChecks s.cfg s.req.data d) :
    exec (.parse st d.devCode) s = .next (s.respond (Rsp.ofError .invalidFrame)) := by
  rw [exec_parse, deviceRsp_devCode, parseFrame_of_not_passesChecks h, parseRsp]

theorem exec_parse_of_passesChecks {d : Device} {s : State} (st : Bool) (h : PassesChecks s.cfg s.req.data d) :
    exec (.parse st d.devCode) s = .next (s.respond
      (Rsp.ofReading (readMode (profile s.cfg d).modeRule s.req.data) (readCoils s.cfg s.req.data d))) := by
  rw [exec_parse, deviceRsp_devCode, parseFrame_of_passesChecks h, parseRsp]

/-- Settles O43: whichever check fails, the buffer does not pass them all. -/
theorem rejectedBufferIsInvalidFrame : Obligations.RejectedBufferIsInvalidFrame := by
  intro st d s hfails
  refine exec_parse_of_not_passesChecks st ?_
  rintro ⟨hlen, hfc, hcrc⟩
  rw [profile_respLen] at hlen
  rw [profile_respFc] at hfc
  rcases hfails with hlen' | hfc' | ⟨hcheck, hinvalid⟩
  · exact hlen' hlen
  · exact hfc' hfc
  · exact Bool.false_ne_true (hinvalid.symm.trans (hcrc hcheck))

theorem profile_modeRule_valve {dev : Device} (hdev : dev ≠ .pump) (cfg : Config) :
    (profile cfg dev).modeRule = .valve := by
  cases dev with
  | va => rfl
  | vb => rfl
  | pump => exact absurd rfl hdev

/-- `RSP.mode` of a valve: remote exactly when byte 7 is 4. -/
theorem readMode_valve_bit (d : Frame) : (readMode .valve d).bit = if byteAt d 7 = 4#8 then 1 else 0 :=
  apply_ite Mode.bit ..

/-- `RSP.mode` of the pump: local exactly when byte 10 is not 0. -/
theorem readMode_pump_bit (d : Frame) : (readMode .pump d).bit = if byteAt d 10 ≠ 0#8 then 0 else 1 :=
  apply_ite Mode.bit ..

/-- Settles O44: the reading of an accepted buffer, by the valves' mode rule and coil word. -/
theorem valveResponseIsReadAsTheSpecSays : Obligations.ValveResponseIsReadAsTheSpecSays := by
  intro st d s hdev hlen hfc hcrc
  have hpasses : PassesChecks s.cfg s.req.data d :=
    ⟨by rw [hlen, profile_respLen, if_neg hdev], by rw [hfc, profile_respFc, if_neg hdev], hcrc⟩
  rw [exec_parse_of_passesChecks st hpasses, profile_modeRule_valve hdev, readCoils_valve hdev, Rsp.ofReading,
    readMode_valve_bit, mapDecode_length, ncoilOf_valve hdev]
  rfl

/-- Settles O45: the reading of an accepted buffer, by the pump's mode rule and the default place of its coils. -/
theorem pumpResponseIsReadAsTheSpecSays : Obligations.PumpResponseIsReadAsTheSpecSays := by
  intro st s hpos hlen hfc hcrc
  have hread := exec_parse_of_passesChecks (d := .pump) st ⟨hlen, hfc, hcrc⟩
  rw [readCoils_pump hpos, Rsp.ofReading, profile, readMode_pump_bit] at hread
  exact hread

/-! ### The frame BUILD makes (R140, R141, R142) -/

theorem buildFrame_of_wrong_length {cfg : Config} {c : CoilSeq} {dev : Device} (h : c.length ≠ ncoilOf dev) :
    buildFrame cfg c dev = .error .invalidShape := by
  rw [buildFrame, profile_ncoil, if_pos h]

theorem exists_buildFrame_eq_ok {cfg : Config} {c : CoilSeq} {dev : Device} (h : c.length = ncoilOf dev) :
    ∃ f, buildFrame cfg c dev = .ok f := by
  rcases buildFrame_cases cfg c dev with ⟨hlen, _⟩ | ⟨_, p, _, _, hok⟩
  · exact absurd h hlen
  · exact ⟨_, hok⟩

theorem profile_writeAddr_valve {dev : Device} (hdev : dev ≠ .pump) (cfg : Config) :
    (profile cfg dev).writeAddr = if dev = .va then cfg.valveAWriteAddr else cfg.valveBWriteAddr := by
  cases dev with
  | va => rfl
  | vb => rfl
  | pump => exact absurd rfl hdev

/-- The header's constants and the start register, byte by byte (30_encoding.md R74). -/
theorem writeHeader_eq (cfg : Config) (dev : Device) : writeHeader cfg dev =
    [0x01, 0x10, (profile cfg dev).writeAddr.extractLsb' 8 8, (profile cfg dev).writeAddr.extractLsb' 0 8, 0x00, 0x02,
      0x04] := rfl

/-- The pump's start register is 0 in every instantiation (10_state.md R27). -/
theorem writeHeader_pump (cfg : Config) : writeHeader cfg .pump = [0x01, 0x10, 0x00, 0x00, 0x00, 0x02, 0x04] := by
  simp [writeHeader_eq, profile]

theorem be16_coilHalf (b : Coil) : be16 (coilHalf b) = [0x00, if b then 0x01 else 0x00] := by
  cases b <;> decide

theorem pumpPayload_pair (c0 c1 : Coil) :
    pumpPayload [c0, c1] = [0x00, if c0 then 0x01 else 0x00, 0x00, if c1 then 0x01 else 0x00] :=
  congrArg₂ (· ++ ·) (be16_coilHalf c0) (be16_coilHalf c1)

/-- The pump's payload is its coils' registers, not the mapper's word. -/
theorem buildFrame_pump_pair (cfg : Config) (c0 c1 : Coil) : buildFrame cfg [c0, c1] .pump =
    .ok (crcAppend (writeHeader cfg .pump ++ pumpPayload [c0, c1])) := rfl

/-- Settles O48: the header's bytes before the payload, a valve's word or the pump's two registers. -/
theorem builtFrameIsTheWriteFrame : Obligations.BuiltFrameIsTheWriteFrame := by
  refine fun cfg c dev => ⟨buildFrame_of_wrong_length, fun hdev hlen => ?_, fun c0 c1 => ?_⟩
  · have hword := mapEncode_of_length (hlen.trans (ncoilOf_valve hdev).symm)
    refine ⟨_, hword, _, rfl, ?_⟩
    rw [buildFrame_valve hdev cfg hword, writeHeader_eq, profile_writeAddr_valve hdev]
    rfl
  · rw [buildFrame_pump_pair, writeHeader_pump, pumpPayload_pair]
    rfl

/-- Settles O49: a built frame is a checksummed sequence of 13 bytes. -/
theorem builtFramesAreValid : Obligations.BuiltFramesAreValid := by
  intro cfg c dev f hbuild
  refine ⟨buildFrame_length hbuild, ?_⟩
  obtain ⟨g, rfl⟩ := buildFrame_eq_crcAppend hbuild
  exact crcValid_crcAppend g

/-- Settles O50: the count written is the built frame's length. -/
theorem buildCompletesWithTheFrame : Obligations.BuildCompletesWithTheFrame := by
  intro st d s hlen
  obtain ⟨f, hf⟩ := exists_buildFrame_eq_ok (cfg := s.cfg) hlen
  refine ⟨f, hf, ?_⟩
  rw [exec_build, deviceRsp_devCode, hf, resultRsp, Rsp.ofFrame, buildFrame_length hf]
  rfl

/-! ### The operation POLL_REQ (R145; 10_state.md R28) -/

theorem poll_eq (cfg : Config) (dev : Device) :
    poll cfg dev = if dev = .pump then cfg.pumpPollFrame else [0x01, 0x03, 0x00, 0x0A, 0x00, 0x03, 0x25, 0xC9] := by
  cases dev <;> rfl

/-- Settles O51: the stored frame is answered with its length. -/
theorem pollRequestCompletesWithTheConstantFrame : Obligations.PollRequestCompletesWithTheConstantFrame := by
  intro st d s
  refine ⟨_, poll_eq s.cfg d, ?_⟩
  rw [exec_pollReq, deviceRsp_devCode]
  rfl

end Sys2Proof.Machine

/-! PROOFS. The statements of 43_command_builder.md: the selected frame, the pump's selection table, and COMMAND. -/

namespace Sys2Proof.Machine

open Sys2Proof

/-! ### A wrong coil count (R161; R115, R141) -/

theorem mapEncode_of_wrong_length {c : CoilSeq} {dev : Device} (h : c.length ≠ ncoilOf dev) :
    mapEncode c dev = .error .invalidShape :=
  if_pos h

theorem commandFrame_of_wrong_length {cfg : Config} {c : CoilSeq} {dev : Device} (st : Bool)
    (h : c.length ≠ ncoilOf dev) : commandFrame cfg c st dev = .error .invalidShape := by
  rw [commandFrame, profile_ncoil, if_pos h]

/-- Settles O37: each of the three operations refuses the sequence before it looks at anything else. -/
theorem wrongCoilCountIsInvalidShape : Obligations.WrongCoilCountIsInvalidShape := by
  intro st d s hlen i hi
  change exec i s = .next (s.respond (Rsp.ofError .invalidShape))
  simp only [List.mem_cons, List.not_mem_nil, or_false] at hi
  rcases hi with rfl | rfl | rfl
  · rw [exec_mapEncode, deviceRsp_devCode, mapEncode_of_wrong_length hlen, resultRsp]
  · rw [exec_build, deviceRsp_devCode, buildFrame_of_wrong_length hlen, resultRsp]
  · rw [exec_command, deviceRsp_devCode, commandFrame_of_wrong_length st hlen, resultRsp]

/-! ### The generic path of the valves (R165) -/

/-- A valve has no canned table, so neither the status nor the policy has a part. -/
theorem commandFrame_valve {dev : Device} (hdev : dev ≠ .pump) (cfg : Config) (c : CoilSeq) (st : Bool) :
    commandFrame cfg c st dev = buildFrame cfg c dev := by
  by_cases hlen : c.length = ncoilOf dev
  · cases dev with
    | va => exact if_neg (not_not_intro hlen)
    | vb => exact if_neg (not_not_intro hlen)
    | pump => exact absurd rfl hdev
  · rw [commandFrame_of_wrong_length st hlen, buildFrame_of_wrong_length hlen]

theorem exec_command_valve {d : Device} (hdev : d ≠ .pump) (st st' : Bool) (s : State) :
    exec (.command st d.devCode) s = exec (.build st' d.devCode) s := by
  rw [exec_command, exec_build, deviceRsp_devCode, deviceRsp_devCode, commandFrame_valve hdev]

/-- Settles O53: a valve's COMMAND is its BUILD, and BUILD completes at the right count. -/
theorem valveCommandIsTheGenericFrame : Obligations.ValveCommandIsTheGenericFrame := by
  intro st st' d s hdev hlen
  have hbuild := exec_command_valve hdev st st' s
  obtain ⟨f, hf, hexec⟩ := buildCompletesWithTheFrame st' d s (hlen.trans (ncoilOf_valve hdev).symm)
  exact ⟨f, hf, hbuild.trans hexec, hbuild⟩

/-! ### The pump's selection (R162, R164, R166) -/

/-- The generic frame of `[0, 0]`, with its checksum (R164). -/
theorem buildFrame_pump_allOff (cfg : Config) : buildFrame cfg [false, false] .pump =
    .ok [0x01, 0x10, 0x00, 0x00, 0x00, 0x02, 0x04, 0x00, 0x00, 0x00, 0x00, 0xF3, 0xAF] := by
  rw [buildFrame_pump_pair, writeHeader_pump]
  decide +kernel

/-- The generic frame of `[1, 1]`, with its checksum (R166). -/
theorem buildFrame_pump_allOn (cfg : Config) : buildFrame cfg [true, true] .pump =
    .ok [0x01, 0x10, 0x00, 0x00, 0x00, 0x02, 0x04, 0x00, 0x01, 0x00, 0x01, 0x63, 0xAF] := by
  rw [buildFrame_pump_pair, writeHeader_pump]
  decide +kernel

/-- An entry of the canned table is the selected frame, whatever the policy (R162). -/
theorem commandFrame_of_canned {cfg : Config} {c0 c1 st : Bool} {f : Frame} (h : canned cfg c0 c1 st = some f) :
    commandFrame cfg [c0, c1] st .pump = .ok f := by
  have hlookup : cannedLookup cfg [c0, c1] st .pump = some f := h
  simp [commandFrame, hlookup, profile, ncoilOf]

/-- `[0, 0]` has no canned entry: the policy decides (R164). -/
theorem commandFrame_pump_allOff (cfg : Config) (st : Bool) : commandFrame cfg [false, false] st .pump =
    if cfg.pumpAllOffPolicy = .generic then buildFrame cfg [false, false] .pump else .error .unsupported := by
  have hlookup : cannedLookup cfg [false, false] st .pump = none := rfl
  cases hpolicy : cfg.pumpAllOffPolicy <;> simp [commandFrame, hlookup, hpolicy, profile, ncoilOf, coilAt]

/-- `[1, 1]` has no canned entry, and the policy is not about it (R165). -/
theorem commandFrame_pump_allOn (cfg : Config) (st : Bool) :
    commandFrame cfg [true, true] st .pump = buildFrame cfg [true, true] .pump := rfl

/-- Settles O54: a canned entry for one coil on, the generic frame for both, and for `[0, 0]` what the policy says. -/
theorem pumpCommandFollowsTheSelectionTable : Obligations.PumpCommandFollowsTheSelectionTable := by
  refine fun cfg st => ⟨?_, ?_, ?_, ?_⟩
  · rw [commandFrame_pump_allOff, buildFrame_pump_allOff]
  · exact commandFrame_of_canned (by cases st <;> rfl)
  · exact commandFrame_of_canned (by cases st <;> rfl)
  · rw [commandFrame_pump_allOn, buildFrame_pump_allOn]

theorem commandFrame_pump_allOff_unsupported {cfg : Config} (hpolicy : cfg.pumpAllOffPolicy = .unsupported)
    (st : Bool) : commandFrame cfg [false, false] st .pump = .error .unsupported := by
  rw [commandFrame_pump_allOff, hpolicy, if_neg (by decide)]

theorem commandFrame_pump_allOff_generic {cfg : Config} (hpolicy : cfg.pumpAllOffPolicy = .generic) (st : Bool) :
    commandFrame cfg [false, false] st .pump =
      .ok [0x01, 0x10, 0x00, 0x00, 0x00, 0x02, 0x04, 0x00, 0x00, 0x00, 0x00, 0xF3, 0xAF] := by
  rw [commandFrame_pump_allOff, if_pos hpolicy, buildFrame_pump_allOff]

/-- Away from `[0, 0]` under the policy UNSUPPORTED every row of the selection table is a frame. -/
theorem exists_commandFrame_pump_eq_ok {cfg : Config} {c : CoilSeq} (st : Bool) (hlen : c.length = 2)
    (h : c ≠ [false, false] ∨ cfg.pumpAllOffPolicy = .generic) : ∃ f, commandFrame cfg c st .pump = .ok f := by
  obtain ⟨c0, c1, rfl⟩ := List.length_eq_two.mp hlen
  obtain ⟨-, h10, h01, h11⟩ := pumpCommandFollowsTheSelectionTable cfg st
  match c0, c1 with
  | false, false => exact ⟨_, commandFrame_pump_allOff_generic (h.resolve_left fun hne => hne rfl) st⟩
  | true, false => exact ⟨_, h10⟩
  | false, true => exact ⟨_, h01⟩
  | true, true => exact ⟨_, h11⟩

/-! ### What is UNSUPPORTED (R164) -/

theorem buildFrame_ne_unsupported (cfg : Config) (c : CoilSeq) (dev : Device) :
    buildFrame cfg c dev ≠ .error .unsupported := by
  rcases buildFrame_cases cfg c dev with ⟨_, h⟩ | ⟨_, _, _, _, h⟩ <;> simp [h]

theorem allOff_of_commandFrame_pump_unsupported {cfg : Config} {c : CoilSeq} {st : Bool}
    (h : commandFrame cfg c st .pump = .error .unsupported) :
    c = [false, false] ∧ cfg.pumpAllOffPolicy = .unsupported := by
  by_contra hnot
  by_cases hlen : c.length = 2
  · have hframe : c ≠ [false, false] ∨ cfg.pumpAllOffPolicy = .generic := by
      cases hpolicy : cfg.pumpAllOffPolicy with
      | unsupported => exact .inl fun hc => hnot ⟨hc, hpolicy⟩
      | generic => exact .inr rfl
    obtain ⟨f, hf⟩ := exists_commandFrame_pump_eq_ok st hlen hframe
    simp [hf] at h
  · simp [commandFrame_of_wrong_length (dev := .pump) st hlen] at h

/-- Settles O56: a valve takes the generic path, which has no such error; the pump's rows are the selection table's. -/
theorem onlyThePumpsAllOffIsUnsupported : Obligations.OnlyThePumpsAllOffIsUnsupported := by
  refine ⟨fun cfg c st dev => ⟨fun h => ?_, ?_⟩, fun _ st hpolicy => commandFrame_pump_allOff_generic hpolicy st⟩
  · by_cases hdev : dev = .pump
    · subst hdev
      exact ⟨rfl, allOff_of_commandFrame_pump_unsupported h⟩
    · rw [commandFrame_valve hdev] at h
      exact absurd h (buildFrame_ne_unsupported cfg c dev)
  · rintro ⟨rfl, rfl, hpolicy⟩
    exact commandFrame_pump_allOff_unsupported hpolicy st

/-! ### The operation COMMAND of the pump (R163) -/

theorem exec_command_pump (st : Bool) (s : State) : exec (.command st .pump) s =
    .next (s.respond (resultRsp Rsp.ofFrame (commandFrame s.cfg s.req.coils st .pump))) :=
  exec_command st .pump s

/-- Settles O55: the frame, or the one error, that the selection gives is what is answered. -/
theorem pumpCommandAnswersTheSelectedFrame : Obligations.PumpCommandAnswersTheSelectedFrame := by
  refine fun st s hlen => ⟨fun hframe => ?_, fun hoff hpolicy => ?_⟩
  · obtain ⟨f, hf⟩ := exists_commandFrame_pump_eq_ok st hlen hframe
    refine ⟨f, hf, ?_⟩
    rw [exec_command_pump, hf]
    rfl
  · rw [exec_command_pump, hoff, commandFrame_pump_allOff_unsupported hpolicy]
    rfl

end Sys2Proof.Machine

/-! PROOFS. The statements of 60_exceptions.md: every admitted request is answered, what a failed operation writes, and
which operations return which error. -/

namespace Sys2Proof.Machine

open Sys2Proof

/-! ### Failed operations (R200, R203) -/

/-- An answer that is a failure is an error response: every other shape has the result code OK. -/
theorem Answer.eq_ofError {s : State} {p : Rsp} (h : Answer s p) (hres : p.res ≠ 0) : ∃ e, p = Rsp.ofError e := by
  cases h with
  | error e => exact ⟨e, rfl⟩
  | crc v => exact absurd (Rsp.ofCrc_res v) hres
  | word w => exact absurd (Rsp.ofWord_res w) hres
  | coils w d => exact absurd (Rsp.ofCoils_res _) hres
  | reading m d f => exact absurd (Rsp.ofReading_res m _) hres
  | built c d f _ => exact absurd (Rsp.ofFrame_res f) hres
  | polled d => exact absurd (Rsp.ofFrame_res _) hres
  | canned c st d f _ => exact absurd (Rsp.ofFrame_res f) hres

/-- Settles O10: an admitted request is due, so the step answers it, and a failure is an error response. -/
theorem everyAdmittedRequestIsAnswered : Obligations.EveryAdmittedRequestIsAnswered := by
  intro s hpending hle
  obtain ⟨p, hstep, hp⟩ := step_due ⟨hpending, (admitted_iff s).2 hle⟩
  refine ⟨p, hstep, fun hres => ?_⟩
  obtain ⟨e, rfl⟩ := hp.eq_ofError hres
  rfl

/-- Settles O12: with a request submitted the step is an answer, and a failure is an error response. -/
theorem failedOperationOutputsAreZero : Obligations.FailedOperationOutputsAreZero := by
  intro s t hpending hstep hres
  rcases step_cases hstep with ⟨hidle, _⟩ | ⟨_, p, rfl, hp⟩
  · simp [hidle] at hpending
  · obtain ⟨e, rfl⟩ := hp.eq_ofError hres
    exact ⟨rfl, rfl, rfl, rfl, rfl, rfl, rfl⟩

/-! ### Which operations return an error (R201) -/

/-- R201's column "returned by", for an operation with a legal header. -/
def ErrorResult.ReturnedBy (i : Instr) : ErrorResult → Prop
  | .invalidFrame => i.op = 3
  | .invalidShape => i.op = 2 ∨ i.op = 4 ∨ i.op = 6
  | .unsupported => i.op = 6
  | .illegal => False

theorem ErrorResult.code_injective : Function.Injective ErrorResult.code := fun e e' => by
  cases e <;> cases e' <;> decide

/-- The response reports no error but those of `P`. -/
def Rsp.FailsWithin (P : ErrorResult → Prop) (p : Rsp) : Prop := ∀ e : ErrorResult, p.res = e.code → P e

section
variable {P : ErrorResult → Prop}

theorem Rsp.FailsWithin.of_ok {p : Rsp} (hres : p.res = 0) : p.FailsWithin P :=
  fun e he => absurd (he.symm.trans hres) e.code_ne_zero

theorem Rsp.FailsWithin.ofError {e : ErrorResult} (he : P e) : (Rsp.ofError e).FailsWithin P :=
  fun _ hcode => ErrorResult.code_injective hcode ▸ he

theorem Rsp.FailsWithin.deviceRsp {dev : DevCode} {answer : Device → Rsp} (hlegal : dev.legal = true)
    (h : ∀ d, (answer d).FailsWithin P) : (deviceRsp dev answer).FailsWithin P := by
  cases dev with
  | va => exact h .va
  | vb => exact h .vb
  | pump => exact h .pump
  | reserved => cases hlegal

theorem Rsp.FailsWithin.resultRsp {α : Type} {answer : α → Rsp} {r : Except ErrorResult α}
    (hok : ∀ a, (answer a).res = 0) (herr : ∀ e, r = .error e → P e) : (resultRsp answer r).FailsWithin P := by
  cases r with
  | error e => exact .ofError (herr e rfl)
  | ok a => exact .of_ok (hok a)

theorem Rsp.FailsWithin.parseRsp (hinvalid : P .invalidFrame) (r : Option Reading) : (parseRsp r).FailsWithin P := by
  cases r with
  | none => exact .ofError hinvalid
  | some r => exact .of_ok (Rsp.ofReading_res r.mode r.coils)

end

theorem mapEncode_error {c : CoilSeq} {dev : Device} {e : ErrorResult} (h : mapEncode c dev = .error e) :
    e = .invalidShape := by
  rcases mapEncode_cases c dev with ⟨_, h'⟩ | ⟨_, h'⟩ <;> rw [h'] at h
  · cases h; rfl
  · cases h

theorem buildFrame_error {cfg : Config} {c : CoilSeq} {dev : Device} {e : ErrorResult}
    (h : buildFrame cfg c dev = .error e) : e = .invalidShape := by
  rcases buildFrame_cases cfg c dev with ⟨_, h'⟩ | ⟨_, _, _, _, h'⟩ <;> rw [h'] at h
  · cases h; rfl
  · cases h

theorem commandFrame_error {cfg : Config} {c : CoilSeq} {st : Bool} {dev : Device} {e : ErrorResult}
    (h : commandFrame cfg c st dev = .error e) : e = .invalidShape ∨ e = .unsupported := by
  rcases commandFrame_cases cfg c st dev with h' | h' | ⟨_, _, h'⟩ | h' <;> rw [h'] at h
  · cases h; exact .inl rfl
  · cases h; exact .inr rfl
  · cases h
  · exact .inl (buildFrame_error h)

/-- A legal operation answers, and the errors it can answer are those R201 lists for it. -/
theorem exec_failsWithin {i : Instr} (hwf : i.wf = true) (s : State) :
    ∃ p, exec i s = .next (s.respond p) ∧ p.FailsWithin (ErrorResult.ReturnedBy i) := by
  cases i with
  | crc16 st dev => exact ⟨_, exec_crc16 st dev s, .of_ok rfl⟩
  | mapDecode st dev => exact ⟨_, exec_mapDecode st dev s, .deviceRsp hwf fun _ => .of_ok rfl⟩
  | mapEncode st dev =>
    refine ⟨_, exec_mapEncode st dev s, .deviceRsp hwf fun _ => .resultRsp Rsp.ofWord_res fun e he => ?_⟩
    rw [mapEncode_error he]
    exact .inl rfl
  | parse st dev =>
    refine ⟨_, exec_parse st dev s, .deviceRsp hwf fun _ => .parseRsp ?_ _⟩
    exact rfl
  | build st dev =>
    refine ⟨_, exec_build st dev s, .deviceRsp hwf fun _ => .resultRsp Rsp.ofFrame_res fun e he => ?_⟩
    rw [buildFrame_error he]
    exact .inr (.inl rfl)
  | pollReq st dev => exact ⟨_, exec_pollReq st dev s, .deviceRsp hwf fun _ => .of_ok rfl⟩
  | command st dev =>
    refine ⟨_, exec_command st dev s, .deviceRsp hwf fun _ => .resultRsp Rsp.ofFrame_res fun e he => ?_⟩
    rcases commandFrame_error he with rfl | rfl
    · exact .inr (.inr rfl)
    · exact rfl

/-- Settles O13: the next state is the operation's answer, and each clause is one row of R201. -/
theorem errorsComeFromTheirOperations : Obligations.ErrorsComeFromTheirOperations := by
  intro i s t hwf hexec
  obtain ⟨p, hp, hfails⟩ := exec_failsWithin hwf s
  obtain rfl : s.respond p = t := Host.Outcome.next.inj (hp.symm.trans hexec)
  exact ⟨hfails .invalidFrame, hfails .invalidShape, hfails .unsupported, hfails .illegal⟩

end Sys2Proof.Machine

/-! PROOFS. The statements of 70_reset_and_hazards.md: the reset state, the host's read of the response, submission while
a request is unanswered, and what reset loses. -/

namespace Sys2Proof.Machine

open Sys2Proof

/-! ### The reset state (R240; 00_scope.md R7; 20_memory.md R52) -/

/-- Settles O22: each fact is a field of the reset state or of its instantiation. -/
theorem resetIsIdleWithTheDefaults : Obligations.ResetIsIdleWithTheDefaults :=
  ⟨reset_pending, reset_answered, rfl, rfl, rfl⟩

/-- The bound on MAX_DATA and the cut at 65535 bytes make the instantiation legal, whatever the OPEN parameters are. -/
theorem Config.instantiated_wf : Config.instantiated.wf = true :=
  (Config.wf_iff _).2 ⟨Config.instantiated_maxData_range, List.length_take_le _ _, List.length_take_le _ _,
    List.length_take_le _ _, List.length_take_le _ _⟩

/-- Settles O17: the instantiation is legal, and the zeros of both registers are coherent. -/
theorem resetHasTheInvariant : Obligations.ResetHasTheInvariant where
  cfg := Config.instantiated_wf
  req := (by decide : Req.zero.wf = true)
  rsp := (by decide : Rsp.zero.wf = true)
  unanswered := fun _ => rfl

/-! ### The host's accesses (R242, R246) -/

/-- Settles O9: the idle case of a step. -/
theorem idleStepChangesNothing : Obligations.IdleStepChangesNothing := fun _ => step_idle

theorem submit_pending {s : State} (r : Req) (h : s.pending = true) :
    submit r s = .error .reqChangedWhileUnanswered := by
  simp [submit, h]

/-- Settles O21: the two cases of a submission. -/
theorem submissionWaitsForTheResponse : Obligations.SubmissionWaitsForTheResponse :=
  ⟨fun r _ => submit_pending r, fun r _ => submit_idle r⟩

/-- A step that begins with a request submitted leaves its answer to be read. -/
theorem readRsp_of_step {s t : State} (hpending : s.pending = true) (hstep : step s = .next t) :
    readRsp t = .ok t.rsp := by
  rcases step_cases hstep with ⟨hidle, _⟩ | ⟨_, p, rfl, _⟩
  · simp [hidle] at hpending
  · exact readRsp_answered (s.respond_answered p)

/-- An accepted submission writes neither the response register nor the fact that it holds a value. -/
theorem readRsp_of_submit {r : Req} {s t : State} (hsub : submit r s = .ok t) : readRsp t = readRsp s := by
  obtain ⟨_, rfl⟩ := submit_cases hsub
  rfl

/-- Settles O19: reset clears the fact that `RSP` holds a value, an answer sets it, and nothing else writes it. -/
theorem responseReadFaultsUntilTheFirstResponse : Obligations.ResponseReadFaultsUntilTheFirstResponse := by
  refine ⟨readRsp_unanswered reset_answered, fun s => readRsp_unanswered (hardReset_answered s),
    fun _ _ => readRsp_of_step, fun s t hidle hstep => ?_, fun _ _ _ => readRsp_of_submit⟩
  obtain rfl : s = t := Host.Outcome.next.inj ((step_idle hidle).symm.trans hstep)
  rfl

/-! ### What reset loses (R240, R243) -/

/-- A request that a core serves is one the host may submit: the core is stuck on any other (20_memory.md R52). -/
theorem admissible_of_serveOne {r : Req} {s t : State} {p : Rsp} (hidle : s.pending = false)
    (hserve : serveOne r s = .next (t, p)) : r.admissible s.cfg := by
  by_contra hadm
  have hstuck : step { s with req := r, pending := true } = .fault .requestNotAdmitted :=
    step_stuck rfl ((admitted_eq_false_iff _).2 (Nat.lt_of_not_le hadm))
  simp [serveOne, submit_idle r hidle, hstuck] at hserve

/-- Settles O20: a served request is admissible, and every idle state of the configuration, the core just reset among
them, gives an admissible request the same response. -/
theorem resetLosesOnlyTheUnansweredRequest : Obligations.ResetLosesOnlyTheUnansweredRequest := by
  refine ⟨fun s => ⟨hardReset_cfg s, hardReset_pending s, step_idle (hardReset_pending s),
    readRsp_unanswered (hardReset_answered s)⟩, fun s t r p hidle hserve => ?_⟩
  obtain ⟨q, hq⟩ := (admissible_of_serveOne hidle hserve).answersFromIdle
  obtain ⟨u, hu, _⟩ := hq s hidle rfl
  obtain ⟨t', ht', _⟩ := hq (hardReset s) (hardReset_pending s) (hardReset_cfg s)
  obtain ⟨-, rfl⟩ : t = u ∧ p = q := Prod.mk.inj (Host.Outcome.next.inj (hserve.symm.trans hu))
  exact ⟨t', ht'⟩

end Sys2Proof.Machine

/-! PROOFS. The pump's coils away from the default of PUMP_COIL_DECODE (92_eei_decisions.md D12). -/

namespace Sys2Proof.Machine

open Sys2Proof

/-- Away from the default of PUMP_COIL_DECODE the pump's coils bypass the mapper (compare `readCoils_pump`). -/
theorem readCoils_pump_positions {cfg : Config} {p0 p1 : CoilPos} (hpos : cfg.pumpCoilDecode = .positions p0 p1)
    (d : Frame) : readCoils cfg d .pump =
      [(byteAt d p0.byte.val).getLsbD p0.bit.val, (byteAt d p1.byte.val).getLsbD p1.bit.val] := by
  simp only [readCoils, hpos, bitAtPos]

/-- Settles O46: the reading of an accepted buffer, by the pump's mode rule and the configured places of its coils. -/
theorem pumpCoilsAreReadAtTheConfiguredPositions : Obligations.PumpCoilsAreReadAtTheConfiguredPositions := by
  intro st s p0 p1 hpos hlen hfc hcrc
  have hpasses : PassesChecks s.cfg s.req.data .pump := ⟨hlen, hfc, hcrc⟩
  have hread := exec_parse_of_passesChecks st hpasses
  rw [readCoils_pump_positions hpos, Rsp.ofReading, profile, readMode_pump_bit] at hread
  exact hread

end Sys2Proof.Machine
